-- ==== Sys2Proof/Word.lean ====
section
/-! DEFINITION. The bit-vector types of the hardware (00_scope.md R7 to R9): a word, a register index and the fields of an instruction word. -/

namespace Sys2Proof

/-- A 32-bit value: register contents, an instruction word, an ALU operand or result (R8, XLEN = ILEN = 32). -/
abbrev Word := BitVec 32

/-- A 5-bit register index, 0 to 31 (R21, R27: the index inputs of the register file are 5 bits wide). -/
abbrev RegIdx := BitVec 5

/-- The 7-bit opcode field, `w[6:0]` (R71). -/
abbrev Opcode := BitVec 7

/-- The 3-bit funct3 field, `w[14:12]` (R71). -/
abbrev Funct3 := BitVec 3

/-- The 7-bit funct7 field, `w[31:25]` (R71). -/
abbrev Funct7 := BitVec 7

/-- The 12-bit immediate of the I format, `w[31:20]`, before sign extension (R80). -/
abbrev Imm12 := BitVec 12

end Sys2Proof
end

