-- ==== Sys2Proof/Config.lean ====
section
/-! DEFINITION. What an implementation fixes: the parameters of 00_scope.md R6. The four that R6 marks `decided` are fields;
`XLEN`, `NREGS` and `ILEN`, which the source fixes at 32, are the types `Word` and `Vector Word 32` (R8, R21, R70). This hardware
has no free value (93_implementation_defined.md: no behaviour is "any value"), so nothing here is opaque. -/

namespace Sys2Proof

/-- The four parameters of R6 that the spec decides but asks a model to carry (92_eei_decisions.md D1, D2, D3, D8). -/
structure Config where
  /-- `OPIMM_IMPLEMENTED` (D1): the register-immediate family has its semantics. -/
  opimmImplemented : Bool
  /-- `SRA_IMPLEMENTED` (D2): SRA and SRAI compute the arithmetic right shift. -/
  sraImplemented : Bool
  /-- `STRICT_FUNCT7` (D3): the dash rows and SLLI require funct7 = 0000000. -/
  strictFunct7 : Bool
  /-- `PC_WIDTH` (D8): the width of pc in bits; pc + 4 wraps modulo 2 to this power. -/
  pcWidth : Nat
  deriving DecidableEq, Repr

/-- The configuration of this hardware: the decided values of R6 (D1 true, D2 false, D3 false, D8 32). Log entries 7
and 13. -/
def Config.hardware : Config :=
  { opimmImplemented := true, sraImplemented := false, strictFunct7 := false, pcWidth := 32 }

/-- `PC_STEP` of R6: what a step whose outcome is Ok adds to pc (R33). -/
def Config.pcStep : Nat := 4

end Sys2Proof
end

