-- ==== Sys2Proof/Syntax.lean ====
section
/-! DEFINITION. The instructions: one constructor for each of the 29 rows of spec/opcode_table.json
(30_encoding.md R75, R91, R92, R100), the opcode classes, and the DecodedInstruction of R90. -/

namespace Sys2Proof

/-- The ten recognised opcode classes (R75), under the spec's short names. -/
inductive OpcodeClass where
  | op | opImm | load | store | branch | jal | jalr | system | lui | auipc
  deriving DecidableEq, Repr

/-- One constructor per row of the opcode table.
Operands stand in the assembler's order (R98): destination, sources, and then the bits that select nothing under the
decided configuration. A dash row (SLL, SLT, XOR, OR, AND, SLLI) keeps its funct7 (R93), a class row and a catch-all
keep all their other bits, so that no bit of a word is lost (R78). -/
inductive Instr where
  -- class OP (R150 to R160)
  | add (rd rs1 rs2 : RegIdx)
  | sub (rd rs1 rs2 : RegIdx)
  | sll (rd rs1 rs2 : RegIdx) (funct7 : Funct7)
  | slt (rd rs1 rs2 : RegIdx) (funct7 : Funct7)
  | xor (rd rs1 rs2 : RegIdx) (funct7 : Funct7)
  | srl (rd rs1 rs2 : RegIdx)
  | sra (rd rs1 rs2 : RegIdx)
  | or (rd rs1 rs2 : RegIdx) (funct7 : Funct7)
  | and (rd rs1 rs2 : RegIdx) (funct7 : Funct7)
  -- class OP-IMM (R170 to R178)
  | addi (rd rs1 : RegIdx) (imm : Imm12)
  | slli (rd rs1 : RegIdx) (shamt : BitVec 5) (funct7 : Funct7)
  | slti (rd rs1 : RegIdx) (imm : Imm12)
  | sltiu (rd rs1 : RegIdx) (imm : Imm12)
  | xori (rd rs1 : RegIdx) (imm : Imm12)
  | srli (rd rs1 : RegIdx) (shamt : BitVec 5)
  | srai (rd rs1 : RegIdx) (shamt : BitVec 5)
  | ori (rd rs1 : RegIdx) (imm : Imm12)
  | andi (rd rs1 : RegIdx) (imm : Imm12)
  -- the eight recognised and unhandled classes (R190 to R197), with the 25 bits `w[31:7]` that are not consulted
  | load (rest : BitVec 25)
  | store (rest : BitVec 25)
  | branch (rest : BitVec 25)
  | jal (rest : BitVec 25)
  | jalr (rest : BitVec 25)
  | system (rest : BitVec 25)
  | lui (rest : BitVec 25)
  | auipc (rest : BitVec 25)
  -- the three catch-all rows (R158, R159; R179; R198)
  | opUnsupported (funct3 : Funct3) (funct7 : Funct7) (rd rs1 rs2 : RegIdx)
  | opImmUnsupported (funct3 : Funct3) (rd rs1 : RegIdx) (imm : Imm12)
  | unknown (word : Word)
  deriving DecidableEq, Repr

/-- The decoder's error (R74, R77): the only way decoding fails. -/
inductive DecodeError where
  /-- `w[6:0]` is none of the ten recognised values; the payload is that field (R210). -/
  | unknownOpcode (opcode : Opcode)
  deriving DecidableEq, Repr

/-- The six fields of a word (R71, R73). -/
structure Fields where
  opcode : Opcode
  rd : RegIdx
  funct3 : Funct3
  rs1 : RegIdx
  rs2 : RegIdx
  funct7 : Funct7
  deriving DecidableEq, Repr

/-- The DecodedInstruction of R90: the six fields and the immediate, which is present for OP-IMM only (R83). -/
structure DecodedInstruction where
  cls : OpcodeClass
  fields : Fields
  imm : Option Word
  deriving DecidableEq, Repr

end Sys2Proof
end

