-- ==== Sys2Proof/Decode.lean ====
section
/-! DEFINITION. The instruction decoder (30_encoding.md): fields, recognised opcodes, the map from a word to an
instruction, and the encoder written from the same tables. Decoding does not depend on the configuration: what the three
switches refuse is refused by the meanings (R114: where the selection is made cannot be observed; log entry 11). -/

namespace Sys2Proof

/-! ### Fields (R71, R72, R80, R81) -/

/-- `opcode = w[6:0]` (R72). -/
def opcodeOf (w : Word) : Opcode := w.extractLsb' 0 7
/-- `rd = w[11:7]` (R72). -/
def rdOf (w : Word) : RegIdx := w.extractLsb' 7 5
/-- `funct3 = w[14:12]` (R72). -/
def funct3Of (w : Word) : Funct3 := w.extractLsb' 12 3
/-- `rs1 = w[19:15]` (R72). -/
def rs1Of (w : Word) : RegIdx := w.extractLsb' 15 5
/-- `rs2 = w[24:20]` (R72). -/
def rs2Of (w : Word) : RegIdx := w.extractLsb' 20 5
/-- `funct7 = w[31:25]` (R72). -/
def funct7Of (w : Word) : Funct7 := w.extractLsb' 25 7
/-- `imm12 = w[31:20]` (R80, R81). -/
def imm12Of (w : Word) : Imm12 := w.extractLsb' 20 12
/-- `w[31:7]`: the 25 bits an unhandled class does not consult (R190 to R197). -/
def restOf (w : Word) : BitVec 25 := w.extractLsb' 7 25

/-- `sext_12`: the sign bit of the immediate copied into the bits above it (R81; primitives of 00_scope.md). -/
def sext12 (v : Imm12) : Word := v.signExtend 32

/-- The funct7 field seen in the immediate bits of an I-format word: `imm[11:5]` (R80). -/
def immFunct7 (v : Imm12) : Funct7 := v.extractLsb' 5 7

/-- The immediate whose upper seven bits are `funct7` and whose low five are `shamt` (R80, R82). -/
def shiftImm (funct7 : Funct7) (shamt : BitVec 5) : Imm12 := (funct7.setWidth 12 <<< 5) ||| shamt.setWidth 12

/-- All six fields, extracted from every word whatever its format (R73). -/
def fieldsOf (w : Word) : Fields :=
  { opcode := opcodeOf w, rd := rdOf w, funct3 := funct3Of w, rs1 := rs1Of w, rs2 := rs2Of w, funct7 := funct7Of w }

/-! ### Recognised opcodes (R75) -/

/-- The opcode value of each class (R75; nine of the ten are general knowledge, D5, log entry 8). -/
def opcodeBits : OpcodeClass → Opcode
  | .op => 0b0110011
  | .opImm => 0b0010011
  | .load => 0b0000011
  | .store => 0b0100011
  | .branch => 0b1100011
  | .jal => 0b1101111
  | .jalr => 0b1100111
  | .system => 0b1110011
  | .lui => 0b0110111
  | .auipc => 0b0010111

/-- The class an opcode names; none for the 118 values that are not recognised (R75, R77). -/
def recognise (o : Opcode) : Option OpcodeClass :=
  if o = 0b0110011 then some .op
  else if o = 0b0010011 then some .opImm
  else if o = 0b0000011 then some .load
  else if o = 0b0100011 then some .store
  else if o = 0b1100011 then some .branch
  else if o = 0b1101111 then some .jal
  else if o = 0b1100111 then some .jalr
  else if o = 0b1110011 then some .system
  else if o = 0b0110111 then some .lui
  else if o = 0b0010111 then some .auipc
  else none

/-- The InstructionDecoder of R74: a DecodedInstruction, or UnknownOpcode, from the word alone. -/
def decodeInstruction (w : Word) : Except DecodeError DecodedInstruction :=
  match recognise (opcodeOf w) with
  | none => .error (.unknownOpcode (opcodeOf w))
  | some .opImm => .ok { cls := .opImm, fields := fieldsOf w, imm := some (sext12 (imm12Of w)) }
  | some c => .ok { cls := c, fields := fieldsOf w, imm := none }

/-! ### The opcode map (R91, R92, R94) -/

/-- Class OP, the table of R91. -/
def decodeOp (w : Word) : Instr :=
  if funct3Of w = 0b000 then
    if funct7Of w = 0b0000000 then .add (rdOf w) (rs1Of w) (rs2Of w)
    else if funct7Of w = 0b0100000 then .sub (rdOf w) (rs1Of w) (rs2Of w)
    else .opUnsupported 0b000 (funct7Of w) (rdOf w) (rs1Of w) (rs2Of w)
  else if funct3Of w = 0b001 then .sll (rdOf w) (rs1Of w) (rs2Of w) (funct7Of w)
  else if funct3Of w = 0b010 then .slt (rdOf w) (rs1Of w) (rs2Of w) (funct7Of w)
  else if funct3Of w = 0b011 then .opUnsupported 0b011 (funct7Of w) (rdOf w) (rs1Of w) (rs2Of w)
  else if funct3Of w = 0b100 then .xor (rdOf w) (rs1Of w) (rs2Of w) (funct7Of w)
  else if funct3Of w = 0b101 then
    if funct7Of w = 0b0000000 then .srl (rdOf w) (rs1Of w) (rs2Of w)
    else if funct7Of w = 0b0100000 then .sra (rdOf w) (rs1Of w) (rs2Of w)
    else .opUnsupported 0b101 (funct7Of w) (rdOf w) (rs1Of w) (rs2Of w)
  else if funct3Of w = 0b110 then .or (rdOf w) (rs1Of w) (rs2Of w) (funct7Of w)
  else .and (rdOf w) (rs1Of w) (rs2Of w) (funct7Of w)

/-- Class OP-IMM, the table of R92. -/
def decodeOpImm (w : Word) : Instr :=
  if funct3Of w = 0b000 then .addi (rdOf w) (rs1Of w) (imm12Of w)
  else if funct3Of w = 0b001 then .slli (rdOf w) (rs1Of w) (rs2Of w) (funct7Of w)
  else if funct3Of w = 0b010 then .slti (rdOf w) (rs1Of w) (imm12Of w)
  else if funct3Of w = 0b011 then .sltiu (rdOf w) (rs1Of w) (imm12Of w)
  else if funct3Of w = 0b100 then .xori (rdOf w) (rs1Of w) (imm12Of w)
  else if funct3Of w = 0b101 then
    if funct7Of w = 0b0000000 then .srli (rdOf w) (rs1Of w) (rs2Of w)
    else if funct7Of w = 0b0100000 then .srai (rdOf w) (rs1Of w) (rs2Of w)
    else .opImmUnsupported 0b101 (rdOf w) (rs1Of w) (imm12Of w)
  else if funct3Of w = 0b110 then .ori (rdOf w) (rs1Of w) (imm12Of w)
  else .andi (rdOf w) (rs1Of w) (imm12Of w)

/-- The instruction a word stands for: total on every word (R74, R94). A word whose opcode is not recognised is the table's
row UNKNOWN, whose meaning raises UnknownOpcode. -/
def decode (w : Word) : Instr :=
  match recognise (opcodeOf w) with
  | some .op => decodeOp w
  | some .opImm => decodeOpImm w
  | some .load => .load (restOf w)
  | some .store => .store (restOf w)
  | some .branch => .branch (restOf w)
  | some .jal => .jal (restOf w)
  | some .jalr => .jalr (restOf w)
  | some .system => .system (restOf w)
  | some .lui => .lui (restOf w)
  | some .auipc => .auipc (restOf w)
  | none => .unknown w

/-- The decoder on an instruction of the opcode table, its bits numbered as the table numbers them. Every instruction is
one 32-bit word (R70), so bits above bit 31 make no instruction. -/
def decodeTableWord (nbits w : Nat) : Option Instr :=
  if nbits ≤ 32 ∧ w < 2 ^ 32 then some (decode (BitVec.ofNat 32 w)) else none

/-! ### The encoder (R78 to R80) -/

/-- Packing six fields into a word: the formula of R78. -/
def pack (f : Fields) : Word :=
  f.opcode.setWidth 32 ||| (f.rd.setWidth 32 <<< 7) ||| (f.funct3.setWidth 32 <<< 12) ||| (f.rs1.setWidth 32 <<< 15)
    ||| (f.rs2.setWidth 32 <<< 20) ||| (f.funct7.setWidth 32 <<< 25)

/-- An R-format word of class OP (R79). -/
def packOp (funct3 : Funct3) (funct7 : Funct7) (rd rs1 rs2 : RegIdx) : Word :=
  pack { opcode := opcodeBits .op, rd := rd, funct3 := funct3, rs1 := rs1, rs2 := rs2, funct7 := funct7 }

/-- An I-format word of class OP-IMM (R80): the immediate fills `w[31:20]`. -/
def packOpImm (funct3 : Funct3) (rd rs1 : RegIdx) (imm : Imm12) : Word :=
  pack { opcode := opcodeBits .opImm, rd := rd, funct3 := funct3, rs1 := rs1, rs2 := imm.extractLsb' 0 5,
         funct7 := immFunct7 imm }

/-- A word of an unhandled class: its opcode under 25 other bits (R190 to R197). -/
def packClass (c : OpcodeClass) (rest : BitVec 25) : Word :=
  (opcodeBits c).setWidth 32 ||| (rest.setWidth 32 <<< 7)

/-- The word of a well-formed instruction (R79, R80, R91, R92). -/
def encode : Instr → Word
  | .add rd rs1 rs2 => packOp 0b000 0b0000000 rd rs1 rs2
  | .sub rd rs1 rs2 => packOp 0b000 0b0100000 rd rs1 rs2
  | .sll rd rs1 rs2 f7 => packOp 0b001 f7 rd rs1 rs2
  | .slt rd rs1 rs2 f7 => packOp 0b010 f7 rd rs1 rs2
  | .xor rd rs1 rs2 f7 => packOp 0b100 f7 rd rs1 rs2
  | .srl rd rs1 rs2 => packOp 0b101 0b0000000 rd rs1 rs2
  | .sra rd rs1 rs2 => packOp 0b101 0b0100000 rd rs1 rs2
  | .or rd rs1 rs2 f7 => packOp 0b110 f7 rd rs1 rs2
  | .and rd rs1 rs2 f7 => packOp 0b111 f7 rd rs1 rs2
  | .addi rd rs1 imm => packOpImm 0b000 rd rs1 imm
  | .slli rd rs1 shamt f7 => packOpImm 0b001 rd rs1 (shiftImm f7 shamt)
  | .slti rd rs1 imm => packOpImm 0b010 rd rs1 imm
  | .sltiu rd rs1 imm => packOpImm 0b011 rd rs1 imm
  | .xori rd rs1 imm => packOpImm 0b100 rd rs1 imm
  | .srli rd rs1 shamt => packOpImm 0b101 rd rs1 (shiftImm 0b0000000 shamt)
  | .srai rd rs1 shamt => packOpImm 0b101 rd rs1 (shiftImm 0b0100000 shamt)
  | .ori rd rs1 imm => packOpImm 0b110 rd rs1 imm
  | .andi rd rs1 imm => packOpImm 0b111 rd rs1 imm
  | .load rest => packClass .load rest
  | .store rest => packClass .store rest
  | .branch rest => packClass .branch rest
  | .jal rest => packClass .jal rest
  | .jalr rest => packClass .jalr rest
  | .system rest => packClass .system rest
  | .lui rest => packClass .lui rest
  | .auipc rest => packClass .auipc rest
  | .opUnsupported f3 f7 rd rs1 rs2 => packOp f3 f7 rd rs1 rs2
  | .opImmUnsupported f3 rd rs1 imm => packOpImm f3 rd rs1 imm
  | .unknown w => w

/-! ### Facts about a row that the checks and the statements use -/

/-- The cell of R91 holds no row: funct3 011, or funct3 000 or 101 with a funct7 other than 0000000 and 0100000 (R158,
R159). -/
def emptyOpCell (funct3 : Funct3) (funct7 : Funct7) : Bool :=
  funct3 = 0b011 || ((funct3 = 0b000 || funct3 = 0b101) && funct7 ≠ 0b0000000 && funct7 ≠ 0b0100000)

/-- The cell of R92 holds no row: funct3 101 with a funct7 other than 0000000 and 0100000 (R179). -/
def emptyOpImmCell (funct3 : Funct3) (funct7 : Funct7) : Bool :=
  funct3 = 0b101 && funct7 ≠ 0b0000000 && funct7 ≠ 0b0100000

/-- The mnemonic of a constructor's row in spec/opcode_table.json. -/
def mnemonicOf : Instr → String
  | .add .. => "ADD" | .sub .. => "SUB" | .sll .. => "SLL" | .slt .. => "SLT" | .xor .. => "XOR"
  | .srl .. => "SRL" | .sra .. => "SRA" | .or .. => "OR" | .and .. => "AND"
  | .addi .. => "ADDI" | .slli .. => "SLLI" | .slti .. => "SLTI" | .sltiu .. => "SLTIU" | .xori .. => "XORI"
  | .srli .. => "SRLI" | .srai .. => "SRAI" | .ori .. => "ORI" | .andi .. => "ANDI"
  | .load .. => "LOAD" | .store .. => "STORE" | .branch .. => "BRANCH" | .jal .. => "JAL" | .jalr .. => "JALR"
  | .system .. => "SYSTEM" | .lui .. => "LUI" | .auipc .. => "AUIPC"
  | .opUnsupported .. => "OP.unsupported" | .opImmUnsupported .. => "OP-IMM.unsupported" | .unknown .. => "UNKNOWN"

end Sys2Proof
end

