-- ==== Sys2Proof/WellFormed.lean ====
section
/-! DEFINITION. Which instruction terms stand for a word. Register indices, immediates and funct fields are in range by
their types; what is left to check is that a catch-all row holds no word an earlier row takes (30_encoding.md R100). -/

namespace Sys2Proof

/-- A catch-all constructor stands only for words no earlier row of the table takes; every other term is well formed. -/
def Instr.wellFormed : Instr → Bool
  | .add .. | .sub .. | .sll .. | .slt .. | .xor .. | .srl .. | .sra .. | .or .. | .and .. => true
  | .addi .. | .slli .. | .slti .. | .sltiu .. | .xori .. | .srli .. | .srai .. | .ori .. | .andi .. => true
  | .load .. | .store .. | .branch .. | .jal .. | .jalr .. | .system .. | .lui .. | .auipc .. => true
  | .opUnsupported f3 f7 _ _ _ => emptyOpCell f3 f7
  | .opImmUnsupported f3 _ _ imm => emptyOpImmCell f3 (immFunct7 imm)
  | .unknown w => recognise (opcodeOf w) = none

end Sys2Proof
end

