-- ==== Sys2Proof/Machine/State.lean ====
section
/-! DEFINITION. The state of the machine (10_state.md R20), the two parameters every step is given beside it (the
instruction source and the configuration, 00_scope.md R12), the reasons a step can stop (60_exceptions.md R210), and the
state after reset. -/

namespace Sys2Proof.Machine

/-- The instruction source (20_memory.md R50 to R53): a partial mapping from an address to a whole 32-bit word, as (address,
word) pairs with strictly rising addresses. An address with no pair holds no word (R52). The cells are words and not bytes
because the core has no byte order and a word may stand at any address (R53, R54; log entry 2). -/
abbrev Memory := List (Nat × Word)

/-- The canonical form of an instruction source: addresses strictly rising. No pair can equal what an unlisted address reads as,
because an unlisted address reads as absent. -/
abbrev Memory.wf (m : Memory) : Prop :=
  m.Pairwise (fun c d => c.1 < d.1)

/-- Every address of the instruction source has at most `width` bits: an address is as wide as pc (R57; log entry 13). -/
abbrev Memory.within (width : Nat) (m : Memory) : Prop :=
  ∀ c ∈ m, c.1 < 2 ^ width

/-- What a step is given: the architectural state of R20 (`regs`, `pc`) and the parameters `imem` and `cfg` of
`step(S, imem, cfg)` (R116), which no step changes (log entry 1). -/
structure State where
  /-- The 32 slots of the register file (R20, R21). Slot 0 is read as 0 whatever it holds, and never written (R22, R23). -/
  regs : Vector Word 32
  /-- The program counter (R31, R32): an unsigned number of `cfg.pcWidth` bits, 32 at the decided value. Its width is a
  parameter (R6, D8), so it is a number below `2 ^ cfg.pcWidth` (`State.Inv`) and no fixed bit vector (log entry 13). -/
  pc : Nat
  /-- The instruction source (R50). -/
  imem : Memory
  /-- The configuration (R6). -/
  cfg : Config
  deriving DecidableEq, Repr

/-- Why a step, or a host-side register access, ends with an error of the hardware (R210). The hardware takes no trap: the
state is left as it was and the reason is handed to the caller (R10, R218). The payloads are diagnostic (D18). -/
inductive Fault where
  /-- Raised by fetch (`executeStage`) where the instruction source holds no word at pc (R52, R216). Safe: the model stops
  where an instruction memory might return some word (D10). -/
  | fetchUnavailable (pc : Nat)
  /-- Raised by the meaning of the row UNKNOWN: `w[6:0]` is not a recognised opcode (R77, R198, R211). Safe: the hardware
  stops there too. -/
  | unknownOpcode (opcode : Opcode)
  /-- Raised by the meanings of class OP and OP-IMM where (funct3, funct7) selects no operation under the configuration
  (R94, R156, R158, R159, R161, R176, R179, R180, R212). Safe: the hardware stops there too. -/
  | unsupportedOperation (opcode : Opcode) (funct3 : Funct3) (funct7 : Funct7)
  /-- Raised by the host's register access alone, never by a step: an index outside 0 to 31 (R27, R43, R214). Safe. -/
  | invalidRegisterIndex (index : Int)
  deriving DecidableEq, Repr

/-- Why a step has no meaning for its instruction. -/
inductive Refusal where
  /-- Raised by an arm of `exec` alone, for an instruction that has no meaning yet. Safe. No arm uses it. -/
  | notModelled (mnemonic : String)
  /-- Raised by the meanings of LOAD, STORE, BRANCH, JAL, JALR, SYSTEM, LUI and AUIPC: the hardware's own placeholder outcome
  NotImplemented, with the class (R190 to R197, R213; 93_implementation_defined.md U4 says a model refuses). Safe: the
  hardware stops there too. -/
  | notImplemented (cls : OpcodeClass)
  deriving DecidableEq, Repr

/-- How a step ends: `Host.Outcome` at this machine's types. -/
abbrev Result := Host.Outcome State Fault Refusal

/-- The outcome code at the port of the execute stage (R119); the five outcomes a step can have (R111). -/
inductive OutcomeCode where
  | ok | fetchUnavailable | unknownOpcode | notImplemented | unsupportedOperation
  deriving DecidableEq, Repr

/-- The machine right after reset (R41, R240, R241). `x[0]` = 0 is the spec's; the values of `x[1]` to `x[31]` and of pc are
launch parameters there and DESIGN CHOICE 0 here (log entries 4 and 5); no instruction source is supplied yet (log entry 6);
the configuration has its decided values (R6, log entries 7 and 13). -/
def State.reset : State :=
  { regs := Vector.replicate 32 0, pc := 0, imem := [], cfg := Config.hardware }

end Sys2Proof.Machine
end

