-- ==== Sys2Proof/Machine/Ops.lean ====
section
/-! DEFINITION. The named operations: reading and writing a register, advancing pc, the instruction source, completing a
step, and raising an error. The hardware has no trap mechanism (60_exceptions.md R218): what stands here in the place of
taking an exception is raising an error outcome, which saves nothing and changes nothing, and there is no return from one
(R220). -/

namespace Sys2Proof.Machine

/-! ### The register file (10_state.md R25, R26) -/

/-- `x[i]`: slot 0 always reads as 0 (R22, R25). -/
def State.readReg (s : State) (i : RegIdx) : Word :=
  if i = 0 then 0 else s.regs.get i.toFin

/-- `x[i] <- v`: no effect when `i = 0` (R23, R26). The 32-bit port is the mask of R24. -/
def State.writeReg (s : State) (i : RegIdx) (v : Word) : State :=
  if i = 0 then s else { s with regs := s.regs.set i.toNat v i.isLt }

/-! ### The program counter -/

/-- A number as a pc holds it: modulo 2 to the power `PC_WIDTH` (R6, R32, D8; `mod 2^32` at the decided width). -/
def wrapPc (cfg : Config) (n : Nat) : Nat := n % 2 ^ cfg.pcWidth

/-- `pc <- (pc + 4) mod 2^PC_WIDTH` (R6, R33, D8). -/
def State.advance (s : State) : State :=
  { s with pc := wrapPc s.cfg (s.pc + Config.pcStep) }

/-! ### The instruction source (R50 to R55) -/

/-- The word the mapping holds at an address, or absent (R51, R52). -/
def Memory.read : Memory → Nat → Option Word
  | [], _ => none
  | (b, w) :: m, a => if a = b then some w else Memory.read m a

/-- The pair that makes an address hold `v`; no pair where `v` is absent. -/
def Memory.cell (a : Nat) : Option Word → Memory
  | none => []
  | some w => [(a, w)]

/-- The mapping changed at one address, by the host before a run (R50, R246): absent removes the pair. -/
def Memory.write : Memory → Nat → Option Word → Memory
  | [], a, v => Memory.cell a v
  | (b, w) :: m, a, v =>
    if a < b then Memory.cell a v ++ (b, w) :: m
    else if a = b then Memory.cell a v ++ m
    else (b, w) :: Memory.write m a v

/-- `IFetch(a)` (R51): a synchronous lookup with no side effect (R55) and no alignment check (R54). -/
def State.ifetch (s : State) (a : Nat) : Option Word :=
  s.imem.read a

/-- The mapping changed at one address of `PC_WIDTH` bits; a wider number is no address of it, and changes nothing (R57, log
entry 13). -/
def Memory.place (cfg : Config) (m : Memory) (a : Nat) (v : Option Word) : Memory :=
  if a < 2 ^ cfg.pcWidth then m.write a v else m

/-- The host places one word in the instruction source, or takes it out (R243, R246). -/
def State.placeWord (s : State) (a : Nat) (v : Option Word) : State :=
  { s with imem := s.imem.place s.cfg a v }

/-! ### How a step ends (R111, R113) -/

/-- Write-back, once, then the advance: the state after a step whose outcome is Ok (R113, R116). -/
def State.complete (s : State) (rd : RegIdx) (y : Word) : State :=
  (s.writeReg rd y).advance

/-- `raise UnsupportedOperation(opcode, funct3, funct7)` (R212): the state stays what it was (R113). -/
def raiseUnsupported (cls : OpcodeClass) (funct3 : Funct3) (funct7 : Funct7) : Result :=
  .fault (.unsupportedOperation (opcodeBits cls) funct3 funct7)

/-- `raise UnknownOpcode(opcode)` (R198, R211). -/
def raiseUnknown (opcode : Opcode) : Result :=
  .fault (.unknownOpcode opcode)

/-- `raise FetchUnavailable(pc)` (R52, R216). -/
def raiseFetchUnavailable (pc : Nat) : Result :=
  .fault (.fetchUnavailable pc)

/-- `raise NotImplemented(class)` (R190 to R197, R213). -/
def raiseNotImplemented (cls : OpcodeClass) : Result :=
  .refused (.notImplemented cls)

end Sys2Proof.Machine
end

