-- ==== Sys2Proof/Machine/Operands.lean ====
section
/-! DEFINITION. The operand forms (40_execute_stage.md R112, R115; 30_encoding.md R81, R82): the two operands of class OP, the
two of class OP-IMM, and the shift amount. `sext12` stands in Decode.lean beside the immediate's field. -/

namespace Sys2Proof.Machine

/-- `signed(v)` of 00_scope.md R8: the value read as two's complement. -/
def signed (v : Word) : Int :=
  if v.toNat < 2 ^ 31 then v.toNat else (v.toNat : Int) - 2 ^ 32

/-- The shift amount `b & 0x1F`, 0 to 31 (R82, R126). -/
def shiftAmount (b : Word) : Nat := (b &&& 0x1F).toNat

/-- Class OP: `a = x[rs1]`, `b = x[rs2]` (R115), both as they were before the step (R112). -/
def operandsOp (s : State) (rs1 rs2 : RegIdx) : Word × Word :=
  (s.readReg rs1, s.readReg rs2)

/-- Class OP-IMM: `a = x[rs1]`, `b = sext_12(w[31:20])`; `x[rs2]` is not read (R115). -/
def operandsOpImm (s : State) (rs1 : RegIdx) (imm : Imm12) : Word × Word :=
  (s.readReg rs1, sext12 imm)

end Sys2Proof.Machine
end

