-- ==== Sys2Proof/Machine/Flags.lean ====
section
/-! DEFINITION. The hardware has no flags (10_state.md R35): no instruction sets a carry, overflow, zero or negative bit. A
comparison leaves its result in a general register as 0 or 1; the two comparisons stand here. -/

namespace Sys2Proof.Machine

/-- A truth value as a register holds it: exactly 0 or 1 (R35, R129, R130). -/
def truthWord (b : Bool) : Word := if b then 1 else 0

/-- `signed(a) < signed(b)` (R129). -/
def lessSigned (a b : Word) : Bool := a.slt b

/-- `a < b` as unsigned 32-bit values (R130). -/
def lessUnsigned (a b : Word) : Bool := a.ult b

end Sys2Proof.Machine
end

