-- ==== Sys2Proof/Machine/Alu.lean ====
section
/-! DEFINITION. The ALU (40_execute_stage.md R120 to R131): ten total functions of two 32-bit operands, with no state, no flag
and no error output. -/

namespace Sys2Proof.Machine

/-- The ten operations (R120). SLTU serves SLTIU only (R130); SRA is reached only when `SRA_IMPLEMENTED` is true (R128). -/
inductive AluOp where
  | add | sub | xor | or | and | sll | srl | sra | slt | sltu
  deriving DecidableEq, Repr

/-- `alu(op, a, b)` (R121 to R130). -/
def alu (op : AluOp) (a b : Word) : Word :=
  match op with
  | .add => a + b
  | .sub => a - b
  | .xor => a ^^^ b
  | .or => a ||| b
  | .and => a &&& b
  | .sll => a <<< shiftAmount b
  | .srl => a >>> shiftAmount b
  | .sra => a.sshiftRight (shiftAmount b)
  | .slt => truthWord (lessSigned a b)
  | .sltu => truthWord (lessUnsigned a b)

end Sys2Proof.Machine
end

