-- ==== Sys2Proof/Machine/Execute.lean ====
section
/-! DEFINITION. What the meanings of one class share: the operand form, the ALU, the write-back with the advance
(40_execute_stage.md R115, R116), and the three configuration checks (00_scope.md R6). -/

namespace Sys2Proof.Machine

/-- A register-register operation runs: R116's `y := alu(op, a, b); x[rd] <- y; pc <- pc + 4` on the operands of class OP. -/
def runOp (op : AluOp) (rd rs1 rs2 : RegIdx) (s : State) : Result :=
  let (a, b) := operandsOp s rs1 rs2
  .next (s.complete rd (alu op a b))

/-- A register-immediate operation runs: the same on the operands of class OP-IMM. -/
def runOpImm (op : AluOp) (rd rs1 : RegIdx) (imm : Imm12) (s : State) : Result :=
  let (a, b) := operandsOpImm s rs1 imm
  .next (s.complete rd (alu op a b))

/-- A dash row (R93): funct7 is not consulted, unless `STRICT_FUNCT7` is true, when it must be 0000000. -/
def dashRow (cls : OpcodeClass) (funct3 : Funct3) (funct7 : Funct7) (s : State) (run : Result) : Result :=
  if s.cfg.strictFunct7 = true ∧ funct7 ≠ 0 then raiseUnsupported cls funct3 funct7 else run

/-- The register-immediate class (R180): every word of it raises UnsupportedOperation unless `OPIMM_IMPLEMENTED`. -/
def opImmClass (funct3 : Funct3) (funct7 : Funct7) (s : State) (run : Result) : Result :=
  if s.cfg.opimmImplemented = true then run else raiseUnsupported .opImm funct3 funct7

/-- The arithmetic right shift (R156, R176): UnsupportedOperation unless `SRA_IMPLEMENTED`. -/
def sraRow (cls : OpcodeClass) (s : State) (run : Result) : Result :=
  if s.cfg.sraImplemented = true then run else raiseUnsupported cls 0b101 0b0100000

end Sys2Proof.Machine
end

