-- ==== Sys2Proof/Machine/OpImmediate.lean ====
section
/-! DEFINITION. The register-immediate instructions, class OP-IMM (42_op_immediate.md). Each holds under
`OPIMM_IMPLEMENTED`; otherwise R180 answers for the whole class. -/

namespace Sys2Proof.Machine

/-- ADDI, R170. -/
def execAddi (rd rs1 : RegIdx) (imm : Imm12) (s : State) : Result :=
  opImmClass 0b000 (immFunct7 imm) s (runOpImm .add rd rs1 imm s)

/-- SLLI, R171: a dash row; the amount is the low five bits of the immediate. -/
def execSlli (rd rs1 : RegIdx) (shamt : BitVec 5) (funct7 : Funct7) (s : State) : Result :=
  opImmClass 0b001 funct7 s (dashRow .opImm 0b001 funct7 s (runOpImm .sll rd rs1 (shiftImm funct7 shamt) s))

/-- SLTI, R172. -/
def execSlti (rd rs1 : RegIdx) (imm : Imm12) (s : State) : Result :=
  opImmClass 0b010 (immFunct7 imm) s (runOpImm .slt rd rs1 imm s)

/-- SLTIU, R173: the immediate is sign-extended, then compared as unsigned. -/
def execSltiu (rd rs1 : RegIdx) (imm : Imm12) (s : State) : Result :=
  opImmClass 0b011 (immFunct7 imm) s (runOpImm .sltu rd rs1 imm s)

/-- XORI, R174. -/
def execXori (rd rs1 : RegIdx) (imm : Imm12) (s : State) : Result :=
  opImmClass 0b100 (immFunct7 imm) s (runOpImm .xor rd rs1 imm s)

/-- SRLI, R175: `w[31:25]` = 0000000, so the immediate is the amount. -/
def execSrli (rd rs1 : RegIdx) (shamt : BitVec 5) (s : State) : Result :=
  opImmClass 0b101 0b0000000 s (runOpImm .srl rd rs1 (shiftImm 0b0000000 shamt) s)

/-- SRAI, R176: UnsupportedOperation while `SRA_IMPLEMENTED` is false. -/
def execSrai (rd rs1 : RegIdx) (shamt : BitVec 5) (s : State) : Result :=
  opImmClass 0b101 0b0100000 s (sraRow .opImm s (runOpImm .sra rd rs1 (shiftImm 0b0100000 shamt) s))

/-- ORI, R177. -/
def execOri (rd rs1 : RegIdx) (imm : Imm12) (s : State) : Result :=
  opImmClass 0b110 (immFunct7 imm) s (runOpImm .or rd rs1 imm s)

/-- ANDI, R178. -/
def execAndi (rd rs1 : RegIdx) (imm : Imm12) (s : State) : Result :=
  opImmClass 0b111 (immFunct7 imm) s (runOpImm .and rd rs1 imm s)

/-- OP-IMM.unsupported, R179 and R180: an OP-IMM word whose cell holds no row raises UnsupportedOperation under every
configuration. -/
def execOpImmUnsupported (funct3 : Funct3) (_rd _rs1 : RegIdx) (imm : Imm12) (_s : State) : Result :=
  raiseUnsupported .opImm funct3 (immFunct7 imm)

end Sys2Proof.Machine
end

