-- ==== Sys2Proof/Machine/OpRegister.lean ====
section
/-! DEFINITION. The register-register instructions, class OP (41_op_register_register.md). -/

namespace Sys2Proof.Machine

/-- ADD, R150. -/
def execAdd (rd rs1 rs2 : RegIdx) (s : State) : Result := runOp .add rd rs1 rs2 s

/-- SUB, R151. -/
def execSub (rd rs1 rs2 : RegIdx) (s : State) : Result := runOp .sub rd rs1 rs2 s

/-- SLL, R152: a dash row. -/
def execSll (rd rs1 rs2 : RegIdx) (funct7 : Funct7) (s : State) : Result :=
  dashRow .op 0b001 funct7 s (runOp .sll rd rs1 rs2 s)

/-- SLT, R153: a dash row. The register contents are compared, never the indices. -/
def execSlt (rd rs1 rs2 : RegIdx) (funct7 : Funct7) (s : State) : Result :=
  dashRow .op 0b010 funct7 s (runOp .slt rd rs1 rs2 s)

/-- XOR, R154: a dash row. -/
def execXor (rd rs1 rs2 : RegIdx) (funct7 : Funct7) (s : State) : Result :=
  dashRow .op 0b100 funct7 s (runOp .xor rd rs1 rs2 s)

/-- SRL, R155. -/
def execSrl (rd rs1 rs2 : RegIdx) (s : State) : Result := runOp .srl rd rs1 rs2 s

/-- SRA, R156: UnsupportedOperation while `SRA_IMPLEMENTED` is false, whatever the registers named. -/
def execSra (rd rs1 rs2 : RegIdx) (s : State) : Result :=
  sraRow .op s (runOp .sra rd rs1 rs2 s)

/-- OR, R157: a dash row. -/
def execOr (rd rs1 rs2 : RegIdx) (funct7 : Funct7) (s : State) : Result :=
  dashRow .op 0b110 funct7 s (runOp .or rd rs1 rs2 s)

/-- AND, R160: a dash row. -/
def execAnd (rd rs1 rs2 : RegIdx) (funct7 : Funct7) (s : State) : Result :=
  dashRow .op 0b111 funct7 s (runOp .and rd rs1 rs2 s)

/-- OP.unsupported, R158 and R159: an OP word whose cell holds no row raises UnsupportedOperation under every
configuration. -/
def execOpUnsupported (funct3 : Funct3) (funct7 : Funct7) (_rd _rs1 _rs2 : RegIdx) (_s : State) : Result :=
  raiseUnsupported .op funct3 funct7

end Sys2Proof.Machine
end

