-- ==== Sys2Proof/Machine/Unhandled.lean ====
section
/-! DEFINITION. The eight recognised classes the Executor does not execute, and the words whose opcode is not recognised
(43_unhandled_opcodes.md). Each ends the step with the outcome the spec gives it and changes nothing. -/

namespace Sys2Proof.Machine

/-- LOAD, R190: NotImplemented(LOAD), whatever the other 25 bits. No effective address is formed and no memory is read. -/
def execLoad (_rest : BitVec 25) (_s : State) : Result := raiseNotImplemented .load

/-- STORE, R191: NotImplemented(STORE), whatever the other 25 bits. No memory is written. -/
def execStore (_rest : BitVec 25) (_s : State) : Result := raiseNotImplemented .store

/-- BRANCH, R192: NotImplemented(BRANCH), whatever the other 25 bits. No comparison is made and pc is neither redirected nor advanced. -/
def execBranch (_rest : BitVec 25) (_s : State) : Result := raiseNotImplemented .branch

/-- JAL, R193: NotImplemented(JAL), whatever the other 25 bits. No link value is written and no target is computed. -/
def execJal (_rest : BitVec 25) (_s : State) : Result := raiseNotImplemented .jal

/-- JALR, R194: NotImplemented(JALR), whatever the other 25 bits. No register is read for a target and no link value is written. -/
def execJalr (_rest : BitVec 25) (_s : State) : Result := raiseNotImplemented .jalr

/-- SYSTEM, R195: NotImplemented(SYSTEM), whatever the other 25 bits. No call, breakpoint, trap return, wait or register access happens. -/
def execSystem (_rest : BitVec 25) (_s : State) : Result := raiseNotImplemented .system

/-- LUI, R196: NotImplemented(LUI), whatever the other 25 bits. `x[rd]` is not written. -/
def execLui (_rest : BitVec 25) (_s : State) : Result := raiseNotImplemented .lui

/-- AUIPC, R197: NotImplemented(AUIPC), whatever the other 25 bits. pc is not read as an operand. -/
def execAuipc (_rest : BitVec 25) (_s : State) : Result := raiseNotImplemented .auipc

/-- UNKNOWN, R198: UnknownOpcode with the opcode field, before any register is touched (R211). -/
def execUnknown (word : Word) (_s : State) : Result := raiseUnknown (opcodeOf word)

end Sys2Proof.Machine
end

