-- ==== Sys2Proof/Machine/Dispatch.lean ====
section
/-! DEFINITION. The Executor's dispatch: one arm per row of the opcode table, each one call of that row's meaning. -/

namespace Sys2Proof.Machine

/-- Executes a decoded instruction (40_execute_stage.md R110 phase 3 with the advance of phase 4, R114). -/
def exec (i : Instr) (s : State) : Host.Outcome State Fault Refusal :=
  match i with
  | .add rd rs1 rs2 => Sys2Proof.Machine.execAdd rd rs1 rs2 s
  | .sub rd rs1 rs2 => Sys2Proof.Machine.execSub rd rs1 rs2 s
  | .sll rd rs1 rs2 f7 => Sys2Proof.Machine.execSll rd rs1 rs2 f7 s
  | .slt rd rs1 rs2 f7 => Sys2Proof.Machine.execSlt rd rs1 rs2 f7 s
  | .xor rd rs1 rs2 f7 => Sys2Proof.Machine.execXor rd rs1 rs2 f7 s
  | .srl rd rs1 rs2 => Sys2Proof.Machine.execSrl rd rs1 rs2 s
  | .sra rd rs1 rs2 => Sys2Proof.Machine.execSra rd rs1 rs2 s
  | .or rd rs1 rs2 f7 => Sys2Proof.Machine.execOr rd rs1 rs2 f7 s
  | .and rd rs1 rs2 f7 => Sys2Proof.Machine.execAnd rd rs1 rs2 f7 s
  | .addi rd rs1 imm => Sys2Proof.Machine.execAddi rd rs1 imm s
  | .slli rd rs1 shamt f7 => Sys2Proof.Machine.execSlli rd rs1 shamt f7 s
  | .slti rd rs1 imm => Sys2Proof.Machine.execSlti rd rs1 imm s
  | .sltiu rd rs1 imm => Sys2Proof.Machine.execSltiu rd rs1 imm s
  | .xori rd rs1 imm => Sys2Proof.Machine.execXori rd rs1 imm s
  | .srli rd rs1 shamt => Sys2Proof.Machine.execSrli rd rs1 shamt s
  | .srai rd rs1 shamt => Sys2Proof.Machine.execSrai rd rs1 shamt s
  | .ori rd rs1 imm => Sys2Proof.Machine.execOri rd rs1 imm s
  | .andi rd rs1 imm => Sys2Proof.Machine.execAndi rd rs1 imm s
  | .load rest => Sys2Proof.Machine.execLoad rest s
  | .store rest => Sys2Proof.Machine.execStore rest s
  | .branch rest => Sys2Proof.Machine.execBranch rest s
  | .jal rest => Sys2Proof.Machine.execJal rest s
  | .jalr rest => Sys2Proof.Machine.execJalr rest s
  | .system rest => Sys2Proof.Machine.execSystem rest s
  | .lui rest => Sys2Proof.Machine.execLui rest s
  | .auipc rest => Sys2Proof.Machine.execAuipc rest s
  | .opUnsupported f3 f7 rd rs1 rs2 => Sys2Proof.Machine.execOpUnsupported f3 f7 rd rs1 rs2 s
  | .opImmUnsupported f3 rd rs1 imm => Sys2Proof.Machine.execOpImmUnsupported f3 rd rs1 imm s
  | .unknown w => Sys2Proof.Machine.execUnknown w s

end Sys2Proof.Machine
end

