-- ==== Sys2Proof/Machine/ExecuteStage.lean ====
section
/-! DEFINITION. The step once the fetch has answered (40_execute_stage.md R110, R116): no word, or a word to decode and
execute. Step.lean only calls it. -/

namespace Sys2Proof.Machine

/-- Phases 2 to 4 of R110 on what the fetch returned: absent raises FetchUnavailable(pc) and nothing is decoded (R52, R216);
a word is decoded and executed. -/
def executeStage (fetched : Option Word) (s : State) : Result :=
  match fetched with
  | none => raiseFetchUnavailable s.pc
  | some w => exec (decode w) s

/-- The instruction source with the word `w` where the next step fetches (R51), and nothing else changed. -/
def placeNext (s : State) (w : Nat) : State :=
  s.placeWord s.pc (some (BitVec.ofNat 32 w))

end Sys2Proof.Machine
end

