-- ==== Sys2Proof/Machine/Step.lean ====
section
/-! DEFINITION. One step: fetch the word at pc, decode it, execute it, advance (40_execute_stage.md R110, R116). -/

namespace Sys2Proof.Machine

/-- One step executes one instruction (R110). -/
def step (s : State) : Host.Outcome State Fault Refusal :=
  executeStage (s.ifetch s.pc) s

/-- `s` with the instruction whose bits are `w` stored where `step` fetches. The words of this hardware are whole and 32 bits
wide (R53, R70), so the bits above `nbits` are those of `w` itself. It stands for the host's loading of a program (R243,
log entry 6). -/
def State.withFetchWord (s : State) (_nbits w : Nat) : State :=
  placeNext s w

end Sys2Proof.Machine
end

