-- ==== Sys2Proof/Machine/Reference.lean ====
section
/-! DEFINITION. R116 of 40_execute_stage.md written out as the spec writes it, over the raw fields of the word and with no
instruction type: what `step` is held against. `step` does not call it. -/

namespace Sys2Proof.Machine

/-- `select_OP` (R91, R93, R116). -/
def selectOp (cfg : Config) (funct3 : Funct3) (funct7 : Funct7) : Option AluOp :=
  let dash (op : AluOp) : Option AluOp := if cfg.strictFunct7 && funct7 != 0 then none else some op
  if funct3 = 0b000 then
    if funct7 = 0b0000000 then some .add else if funct7 = 0b0100000 then some .sub else none
  else if funct3 = 0b001 then dash .sll
  else if funct3 = 0b010 then dash .slt
  else if funct3 = 0b011 then none
  else if funct3 = 0b100 then dash .xor
  else if funct3 = 0b101 then
    if funct7 = 0b0000000 then some .srl
    else if funct7 = 0b0100000 then (if cfg.sraImplemented then some .sra else none) else none
  else if funct3 = 0b110 then dash .or
  else dash .and

/-- `select_OPIMM` (R92, R93, R116), under `OPIMM_IMPLEMENTED`. -/
def selectOpImm (cfg : Config) (funct3 : Funct3) (funct7 : Funct7) : Option AluOp :=
  if funct3 = 0b000 then some .add
  else if funct3 = 0b001 then (if cfg.strictFunct7 && funct7 != 0 then none else some .sll)
  else if funct3 = 0b010 then some .slt
  else if funct3 = 0b011 then some .sltu
  else if funct3 = 0b100 then some .xor
  else if funct3 = 0b101 then
    if funct7 = 0b0000000 then some .srl
    else if funct7 = 0b0100000 then (if cfg.sraImplemented then some .sra else none) else none
  else if funct3 = 0b110 then some .or
  else some .and

/-- R116's last lines: `y := alu(op, a, b); x[rd] <- y; pc <- (pc + 4) mod 2^32; Ok`, with the width of R6. -/
def referenceFinish (s : State) (op : AluOp) (rd : RegIdx) (a b : Word) : Result :=
  let y := alu op a b
  let s' := s.writeReg rd y
  .next { s' with pc := (s'.pc + 4) % 2 ^ s'.cfg.pcWidth }

/-- R116, line by line. -/
def referenceStep (s : State) : Result :=
  match s.ifetch s.pc with
  | none => .fault (.fetchUnavailable s.pc)
  | some w =>
    let opcode := opcodeOf w
    let rd := rdOf w
    let funct3 := funct3Of w
    let rs1 := rs1Of w
    let rs2 := rs2Of w
    let funct7 := funct7Of w
    if opcode ∉ ([0x33, 0x13, 0x03, 0x23, 0x63, 0x6F, 0x67, 0x73, 0x37, 0x17] : List Opcode) then
      .fault (.unknownOpcode opcode)
    else if opcode = 0x03 then .refused (.notImplemented .load)
    else if opcode = 0x23 then .refused (.notImplemented .store)
    else if opcode = 0x63 then .refused (.notImplemented .branch)
    else if opcode = 0x6F then .refused (.notImplemented .jal)
    else if opcode = 0x67 then .refused (.notImplemented .jalr)
    else if opcode = 0x73 then .refused (.notImplemented .system)
    else if opcode = 0x37 then .refused (.notImplemented .lui)
    else if opcode = 0x17 then .refused (.notImplemented .auipc)
    else if opcode = 0x33 then
      match selectOp s.cfg funct3 funct7 with
      | none => .fault (.unsupportedOperation opcode funct3 funct7)
      | some op => referenceFinish s op rd (s.readReg rs1) (s.readReg rs2)
    else if s.cfg.opimmImplemented = false then .fault (.unsupportedOperation opcode funct3 funct7)
    else
      match selectOpImm s.cfg funct3 funct7 with
      | none => .fault (.unsupportedOperation opcode funct3 funct7)
      | some op => referenceFinish s op rd (s.readReg rs1) (sext12 (imm12Of w))

end Sys2Proof.Machine
end

