-- ==== Sys2Proof/Machine/Datapath.lean ====
section
/-! DEFINITION. The hardware as blocks with ports (10_state.md R28, 30_encoding.md R99, 40_execute_stage.md R118 to R120; the
spec's own rendering, D16): one clock cycle is one step, and the state is updated at the cycle's end only when the outcome is
Ok. `step` does not call it; it is stated to agree with `step`. -/

namespace Sys2Proof.Machine

/-- The output ports of the decoder block (R99). -/
structure DecoderPorts where
  opcode : Opcode
  rd : RegIdx
  funct3 : Funct3
  rs1 : RegIdx
  rs2 : RegIdx
  funct7 : Funct7
  imm : Word
  unknownOpcode : Bool
  deriving DecidableEq, Repr

/-- The decoder block: combinational in `instr` (R99). -/
def decoderBlock (instr : Word) : DecoderPorts :=
  { opcode := opcodeOf instr, rd := rdOf instr, funct3 := funct3Of instr, rs1 := rs1Of instr, rs2 := rs2Of instr,
    funct7 := funct7Of instr, imm := sext12 (imm12Of instr), unknownOpcode := (recognise (opcodeOf instr)).isNone }

/-- The write port of the register file at the end of a cycle (R28): with `wen` 1 and `waddr` not 0, `slot[waddr]` takes
`wdata`; otherwise no slot changes. -/
def registerWritePort (slots : Vector Word 32) (waddr : RegIdx) (wdata : Word) (wen : Bool) : Vector Word 32 :=
  if wen && waddr != 0 then slots.set waddr.toNat wdata waddr.isLt else slots

/-- The operation the control logic selects from the decoder's ports (R91, R92, R180). -/
def selectBlock (cfg : Config) (d : DecoderPorts) : Option AluOp :=
  if d.opcode = 0x33 then selectOp cfg d.funct3 d.funct7
  else if d.opcode = 0x13 && cfg.opimmImplemented then selectOpImm cfg d.funct3 d.funct7
  else none

/-- The outcome code port (R119). `imemValid` is 0 when the source holds no word at `imem_addr`. -/
def outcomeBlock (imemValid : Bool) (d : DecoderPorts) (selected : Option AluOp) : OutcomeCode :=
  if !imemValid then .fetchUnavailable
  else if d.unknownOpcode then .unknownOpcode
  else if d.opcode != 0x33 && d.opcode != 0x13 then .notImplemented
  else if selected.isNone then .unsupportedOperation
  else .ok

/-- The second operand of the ALU: `rdata2`, or the immediate for the register-immediate class (R115). -/
def operandMux (d : DecoderPorts) (rdata2 : Word) : Word :=
  if d.opcode = 0x13 then d.imm else rdata2

/-- One clock cycle (R118, R119): the fetch, the decoder, the two read ports and the ALU are combinational; the register write
and the pc update take effect together at the end when the outcome is Ok. Where `imem_valid` is 0 the word on `imem_word` is of
no consequence; it is 0 here. -/
def clockCycle (s : State) : OutcomeCode × State :=
  let imemAddr := s.pc
  let fetched := s.ifetch imemAddr
  let d := decoderBlock (fetched.getD 0)
  let rdata1 := s.readReg d.rs1
  let rdata2 := s.readReg d.rs2
  let selected := selectBlock s.cfg d
  let code := outcomeBlock fetched.isSome d selected
  let wdata := alu (selected.getD .add) rdata1 (operandMux d rdata2)
  let wen := code == .ok
  (code, { s with regs := registerWritePort s.regs d.rd wdata wen, pc := if wen then wrapPc s.cfg (s.pc + 4) else s.pc })

end Sys2Proof.Machine
end

