-- ==== Sys2Proof/Machine/HostInterface.lean ====
section
/-! DEFINITION. What the host can do between steps (70_reset_and_hazards.md R243 to R247; 10_state.md R41 to R43): create the
state, supply the instruction source, read and seed registers, read pc. None of it is a step of the machine. -/

namespace Sys2Proof.Machine

/-- A host's integer as a register index; none outside 0 to 31 (R27). -/
def hostIndex (index : Int) : Option RegIdx :=
  if 0 ≤ index ∧ index ≤ 31 then some (BitVec.ofInt 5 index) else none

/-- Register inspection (R42, R43): `read(index)` of R25, or InvalidRegisterIndex. -/
def State.hostRead (s : State) (index : Int) : Except Fault Word :=
  match hostIndex index with
  | some i => .ok (s.readReg i)
  | none => .error (.invalidRegisterIndex index)

/-- Seeding a register (R43): `write(index, value)` of R26, the value stored modulo 2^32 (R24), or InvalidRegisterIndex with
nothing changed. An edit of a running machine is a new launch (R247). -/
def State.hostWrite (s : State) (index value : Int) : Except Fault State :=
  match hostIndex index with
  | some i => .ok (s.writeReg i (BitVec.ofInt 32 value))
  | none => .error (.invalidRegisterIndex index)

/-- The host reads pc (R42, D22). -/
def State.hostReadPc (s : State) : Nat := s.pc

/-- The host's own skip after an error (R220): a new launch with pc advanced; the core has no skip of its own. -/
def State.hostSkip (s : State) : State := s.advance

/-- The mapping a loader supplies (R50), from a list of (address, word); a later pair replaces an earlier one, and a pair whose
first number is wider than an address makes none. -/
def Memory.ofList (cfg : Config) (pairs : List (Nat × Word)) : Memory :=
  pairs.foldl (fun m p => m.place cfg p.1 (some p.2)) []

/-- Registers seeded from a list of values for `x[0]`, `x[1]`, ... in order (R41, R246). -/
def seedRegs (initRegs : RegIdx → Int) : Vector Word 32 :=
  Vector.ofFn (fun i => if i = 0 then 0 else BitVec.ofInt 32 (initRegs (BitVec.ofFin i)))

/-- Core initialization (R41, R240, R241, R243): `x[0]` = 0, `x[i]` = `init_regs[i] mod 2^32`, pc = `init_pc mod 2^PC_WIDTH`
(2^32 at the decided width), with the instruction source and the configuration of the run. -/
def State.launch (cfg : Config) (imem : List (Nat × Word)) (initRegs : RegIdx → Int) (initPc : Int) : State :=
  { regs := seedRegs initRegs, pc := (initPc % 2 ^ cfg.pcWidth).toNat, imem := Memory.ofList cfg imem, cfg := cfg }

end Sys2Proof.Machine
end

