-- ==== Sys2Proof/Machine/OpcodeTable.lean ====
section
/-! DEFINITION. spec/opcode_table.json as data (30_encoding.md R100): a list of rows tried in order, the first whose mask
selects its match value taking the word. No meaning reads it: it is the table the decoder and the outcomes are held against. -/

namespace Sys2Proof.Machine

/-- One row: its mnemonic, match value and mask, the mask under `STRICT_FUNCT7`, its outcome under the decided configuration
and its outcome when `SRA_IMPLEMENTED` is true. -/
structure TableRow where
  mnemonic : String
  matchBits : Word
  mask : Word
  strictMask : Word
  outcome : OutcomeCode
  outcomeIfSra : OutcomeCode
  deriving DecidableEq, Repr

/-- The nine rows of class OP. -/
def opRows : List TableRow := [
  ⟨"ADD", 0x00000033, 0xFE00707F, 0xFE00707F, .ok, .ok⟩,
  ⟨"SUB", 0x40000033, 0xFE00707F, 0xFE00707F, .ok, .ok⟩,
  ⟨"SLL", 0x00001033, 0x0000707F, 0xFE00707F, .ok, .ok⟩,
  ⟨"SLT", 0x00002033, 0x0000707F, 0xFE00707F, .ok, .ok⟩,
  ⟨"XOR", 0x00004033, 0x0000707F, 0xFE00707F, .ok, .ok⟩,
  ⟨"SRL", 0x00005033, 0xFE00707F, 0xFE00707F, .ok, .ok⟩,
  ⟨"SRA", 0x40005033, 0xFE00707F, 0xFE00707F, .unsupportedOperation, .ok⟩,
  ⟨"OR", 0x00006033, 0x0000707F, 0xFE00707F, .ok, .ok⟩,
  ⟨"AND", 0x00007033, 0x0000707F, 0xFE00707F, .ok, .ok⟩]

/-- The nine rows of class OP-IMM. -/
def opImmRows : List TableRow := [
  ⟨"ADDI", 0x00000013, 0x0000707F, 0x0000707F, .ok, .ok⟩,
  ⟨"SLLI", 0x00001013, 0x0000707F, 0xFE00707F, .ok, .ok⟩,
  ⟨"SLTI", 0x00002013, 0x0000707F, 0x0000707F, .ok, .ok⟩,
  ⟨"SLTIU", 0x00003013, 0x0000707F, 0x0000707F, .ok, .ok⟩,
  ⟨"XORI", 0x00004013, 0x0000707F, 0x0000707F, .ok, .ok⟩,
  ⟨"SRLI", 0x00005013, 0xFE00707F, 0xFE00707F, .ok, .ok⟩,
  ⟨"SRAI", 0x40005013, 0xFE00707F, 0xFE00707F, .unsupportedOperation, .ok⟩,
  ⟨"ORI", 0x00006013, 0x0000707F, 0x0000707F, .ok, .ok⟩,
  ⟨"ANDI", 0x00007013, 0x0000707F, 0x0000707F, .ok, .ok⟩]

/-- The eight rows of the unhandled classes. -/
def classRows : List TableRow := [
  ⟨"LOAD", 0x00000003, 0x0000007F, 0x0000007F, .notImplemented, .notImplemented⟩,
  ⟨"STORE", 0x00000023, 0x0000007F, 0x0000007F, .notImplemented, .notImplemented⟩,
  ⟨"BRANCH", 0x00000063, 0x0000007F, 0x0000007F, .notImplemented, .notImplemented⟩,
  ⟨"JAL", 0x0000006F, 0x0000007F, 0x0000007F, .notImplemented, .notImplemented⟩,
  ⟨"JALR", 0x00000067, 0x0000007F, 0x0000007F, .notImplemented, .notImplemented⟩,
  ⟨"SYSTEM", 0x00000073, 0x0000007F, 0x0000007F, .notImplemented, .notImplemented⟩,
  ⟨"LUI", 0x00000037, 0x0000007F, 0x0000007F, .notImplemented, .notImplemented⟩,
  ⟨"AUIPC", 0x00000017, 0x0000007F, 0x0000007F, .notImplemented, .notImplemented⟩]

/-- The three catch-all rows, whose place at the end matters (R100). -/
def catchAllRows : List TableRow := [
  ⟨"OP.unsupported", 0x00000033, 0x0000007F, 0x0000007F, .unsupportedOperation, .unsupportedOperation⟩,
  ⟨"OP-IMM.unsupported", 0x00000013, 0x0000007F, 0x0000007F, .unsupportedOperation, .unsupportedOperation⟩,
  ⟨"UNKNOWN", 0x00000000, 0x00000000, 0x00000000, .unknownOpcode, .unknownOpcode⟩]

/-- The 29 rows in the table's order. -/
def opcodeTable : List TableRow := opRows ++ opImmRows ++ classRows ++ catchAllRows

/-- The row takes the word: `(w & mask) == match` (R100), with the strict mask under `STRICT_FUNCT7` (R93). -/
def TableRow.takes (cfg : Config) (r : TableRow) (w : Word) : Bool :=
  w &&& (if cfg.strictFunct7 then r.strictMask else r.mask) = r.matchBits

/-- The first row that takes the word (R100). -/
def tableRow (cfg : Config) (w : Word) : Option TableRow :=
  opcodeTable.find? (fun r => r.takes cfg w)

/-- The outcome the table gives a word under a configuration with `OPIMM_IMPLEMENTED` (R100: the other is not encoded). -/
def tableOutcome (cfg : Config) (w : Word) : Option OutcomeCode :=
  (tableRow cfg w).map (fun r => if cfg.sraImplemented then r.outcomeIfSra else r.outcome)

end Sys2Proof.Machine
end

