-- ==== Sys2Proof/Machine/Run.lean ====
section
/-! DEFINITION. The state after a step, whatever its outcome, and a run (40_execute_stage.md R113, R134): `step` applied until
the first outcome that is not Ok, or for a number of steps the host chose. -/

namespace Sys2Proof.Machine

/-- The outcome code of a result (R119); none for a result no step has (a host-side error, an unmodelled arm). -/
def codeOf : Result → Option OutcomeCode
  | .next _ => some .ok
  | .fault (.fetchUnavailable _) => some .fetchUnavailable
  | .fault (.unknownOpcode _) => some .unknownOpcode
  | .fault (.unsupportedOperation _ _ _) => some .unsupportedOperation
  | .fault (.invalidRegisterIndex _) => none
  | .refused (.notImplemented _) => some .notImplemented
  | .refused _ => none

/-- The state the host holds after a result: the next state on Ok, and the state from before the step otherwise (R113,
R210 (b), R218). -/
def stateAfter (s : State) : Result → State
  | .next t => t
  | .fault _ => s
  | .refused _ => s

/-- The reason a run ended (R134). -/
inductive RunEnd where
  /-- The number of steps the host chose was reached. -/
  | stepsDone
  /-- A step ended with an error of the hardware. -/
  | fault (r : Fault)
  /-- A step ended with a placeholder outcome. -/
  | refused (r : Refusal)
  deriving DecidableEq, Repr

/-- What a run leaves: how many steps were Ok, the state, and why it ended. -/
structure RunReport where
  okSteps : Nat
  final : State
  ended : RunEnd
  deriving DecidableEq, Repr

/-- A run of at most `n` steps from `s` (R134): it ends at the first step whose outcome is not Ok, the state unchanged by that
step and the outcome reported. -/
def runUpTo : Nat → State → RunReport
  | 0, s => ⟨0, s, .stepsDone⟩
  | n + 1, s =>
    match step s with
    | .next t => let r := runUpTo n t; ⟨r.okSteps + 1, r.final, r.ended⟩
    | .fault f => ⟨0, s, .fault f⟩
    | .refused r => ⟨0, s, .refused r⟩

end Sys2Proof.Machine
end

