-- ==== Sys2Proof/Safety.lean ====
section
/-! DEFINITION. The words the statements are made in: a completed step and what it leaves, a stop, and the invariant of the
machine. -/

namespace Sys2Proof.Machine

/-- The machine's invariant: the hardwired slot holds 0 (R22, R41), pc is a number of `PC_WIDTH` bits (R32), and the instruction
source is in canonical form with addresses of that width (R57). -/
def State.Inv (s : State) : Prop :=
  s.regs.get 0 = 0 ∧ s.pc < 2 ^ s.cfg.pcWidth ∧ Memory.wf s.imem ∧ Memory.within s.cfg.pcWidth s.imem

/-- What a list of (address, word) says of one address: the word of its last pair there, or absent (R50). -/
def lastWordAt (pairs : List (Nat × Word)) (a : Nat) : Option Word :=
  (pairs.reverse.find? (fun p => p.1 = a)).map (fun p => p.2)

/-- Everything but the register `rd`: what an Ok step leaves as it was or advances (R29, R33, R113). Every other register reads
as before, pc is 4 more, every address of the instruction source reads as before, and the configuration stands. There are no
flags and no special registers (R35, R36). Where pc + 4 leaves pc's width pc wraps by the spec's decision D8 (log entry 13): that
is said apart, by the frame statement, and not here. -/
def OnlyWrites (s t : State) (rd : RegIdx) : Prop :=
  (∀ r, r ≠ rd → t.readReg r = s.readReg r) ∧
  (s.pc + 4 < 2 ^ s.cfg.pcWidth → t.pc = s.pc + 4) ∧
  (∀ a, t.ifetch a = s.ifetch a) ∧
  t.cfg = s.cfg

/-- The instruction completes with outcome Ok (R111): the next state holds the 32-bit number `y` in `x[rd]`, or still reads 0
there when `rd` is 0 (R23), and is otherwise what `OnlyWrites` says. -/
def CompletesWith (i : Instr) (s : State) (rd : RegIdx) (y : Nat) : Prop :=
  ∃ t, exec i s = .next t ∧ (t.readReg rd).toNat = (if rd = 0 then 0 else y) ∧ OnlyWrites s t rd

/-- The instruction raises UnsupportedOperation with its triple, and the host's state is the one from before (R212, R113). -/
def RaisesUnsupported (i : Instr) (s : State) (opcode : Opcode) (funct3 : Funct3) (funct7 : Funct7) : Prop :=
  exec i s = .fault (.unsupportedOperation opcode funct3 funct7) ∧ stateAfter s (exec i s) = s

/-- The instruction ends with the placeholder outcome of its class, and the host's state is the one from before (R213, R113). -/
def RaisesNotImplemented (i : Instr) (s : State) (cls : OpcodeClass) : Prop :=
  exec i s = .refused (.notImplemented cls) ∧ stateAfter s (exec i s) = s

/-- Every word that `mask` and `matchBits` select (30_encoding.md R100) decodes to the instruction `i` builds from the word's
fields. -/
def HasEncoding (mask matchBits : Word) (i : Word → Instr) : Prop :=
  ∀ w : Word, w &&& mask = matchBits → decode w = i w

/-- The sign-extended immediate as a number (R81). -/
def immValue (imm : Imm12) : Nat :=
  if imm.toNat < 2048 then imm.toNat else imm.toNat + 0xFFFFF000

/-- The ten recognised opcode values, in the order of R75. -/
def tenOpcodes : List Opcode := [0x33, 0x13, 0x03, 0x23, 0x63, 0x6F, 0x67, 0x73, 0x37, 0x17]

/-- The opcode class of an instruction's words; none for the row UNKNOWN (R75, R90). -/
def classOf : Instr → Option OpcodeClass
  | .add .. | .sub .. | .sll .. | .slt .. | .xor .. | .srl .. | .sra .. | .or .. | .and .. | .opUnsupported .. => some .op
  | .addi .. | .slli .. | .slti .. | .sltiu .. | .xori .. | .srli .. | .srai .. | .ori .. | .andi .. => some .opImm
  | .opImmUnsupported .. => some .opImm
  | .load _ => some .load
  | .store _ => some .store
  | .branch _ => some .branch
  | .jal _ => some .jal
  | .jalr _ => some .jalr
  | .system _ => some .system
  | .lui _ => some .lui
  | .auipc _ => some .auipc
  | .unknown _ => none

/-- The same state under the reading `STRICT_FUNCT7 = false` (D3). -/
def State.loosened (s : State) : State :=
  { s with cfg := { s.cfg with strictFunct7 := false } }

/-- The registers an instruction reads (R29, R115). -/
def sourcesOf : Instr → List RegIdx
  | .add _ rs1 rs2 | .sub _ rs1 rs2 | .srl _ rs1 rs2 | .sra _ rs1 rs2 => [rs1, rs2]
  | .sll _ rs1 rs2 _ | .slt _ rs1 rs2 _ | .xor _ rs1 rs2 _ | .or _ rs1 rs2 _ | .and _ rs1 rs2 _ => [rs1, rs2]
  | .addi _ rs1 _ | .slti _ rs1 _ | .sltiu _ rs1 _ | .xori _ rs1 _ | .ori _ rs1 _ | .andi _ rs1 _ => [rs1]
  | .slli _ rs1 _ _ | .srli _ rs1 _ | .srai _ rs1 _ => [rs1]
  | .load _ | .store _ | .branch _ | .jal _ | .jalr _ | .system _ | .lui _ | .auipc _ => []
  | .opUnsupported .. | .opImmUnsupported .. | .unknown _ => []

/-- The register an instruction may write: its `rd` field where it has a meaning that writes one (R29). -/
def destOf : Instr → Option RegIdx
  | .add rd _ _ | .sub rd _ _ | .srl rd _ _ | .sra rd _ _ => some rd
  | .sll rd _ _ _ | .slt rd _ _ _ | .xor rd _ _ _ | .or rd _ _ _ | .and rd _ _ _ => some rd
  | .addi rd _ _ | .slti rd _ _ | .sltiu rd _ _ | .xori rd _ _ | .ori rd _ _ | .andi rd _ _ => some rd
  | .slli rd _ _ _ | .srli rd _ _ | .srai rd _ _ => some rd
  | .load _ | .store _ | .branch _ | .jal _ | .jalr _ | .system _ | .lui _ | .auipc _ => none
  | .opUnsupported .. | .opImmUnsupported .. | .unknown _ => none

end Sys2Proof.Machine
end

