-- ==== Sys2Proof/Certificates/Slice0/Obligations.lean ====
section
/-! DEFINITION. The statements for the provers. Each docstring names the rule or the section of spec/ it formalises; where a
clause rests on a decision of the spec (D<n>) or on an entry of the assumption log, it says so. -/

open Sys2Proof Sys2Proof.Machine

/-! ### State -/

/-- Reset (R41, R240): x0 is the spec's 0. The zeros in the other registers and in pc, and the empty instruction source, are the
model's choices (log entries 4, 5, 6); the configuration is R6's decided values (log entries 7 and 13). -/
def Obligations.ResetLeavesZerosAndDecidedSwitches : Prop :=
  (∀ i, State.reset.readReg i = 0) ∧ State.reset.pc = 0 ∧ (∀ a, State.reset.ifetch a = none) ∧
  State.reset.cfg.opimmImplemented = true ∧ State.reset.cfg.sraImplemented = false ∧
  State.reset.cfg.strictFunct7 = false ∧ State.reset.cfg.pcWidth = 32

/-- Launch (10_state.md section 5, D13; 20_memory.md section 1): x0 is 0, every other register holds the host's integer modulo
2^32 and pc the host's integer modulo 2 to the power PC_WIDTH, the configuration is the run's, and a fetch answers the word of
the last pair the host supplies for the address, and none where there is no such pair or the number is wider than an address. -/
def Obligations.LaunchSeedsRegistersAndPc : Prop :=
  ∀ (c : Config) (m : List (Nat × Word)) (init : RegIdx → Int) (pc0 : Int),
    (State.launch c m init pc0).readReg 0 = 0 ∧
    (∀ i, i ≠ 0 → ((State.launch c m init pc0).readReg i).toNat = init i % 2 ^ 32) ∧
    ((State.launch c m init pc0).pc : Int) = pc0 % 2 ^ c.pcWidth ∧
    (State.launch c m init pc0).cfg = c ∧
    (∀ a, a < 2 ^ c.pcWidth → (State.launch c m init pc0).ifetch a = lastWordAt m a) ∧
    (∀ a, ¬ a < 2 ^ c.pcWidth → (State.launch c m init pc0).ifetch a = none)

/-- R22, R23: slot 0 always reads as 0, whatever is written to it, and a write to it changes nothing. -/
def Obligations.RegisterZeroIsHardwired : Prop :=
  ∀ (s : State) (v : Word), s.readReg 0 = 0 ∧ (s.writeReg 0 v).readReg 0 = 0 ∧ s.writeReg 0 v = s

/-- R26: a write to a register other than 0 is what the next read of it returns, every other register reads as before, and
nothing else changes; a write to register 0 is a no-op. -/
def Obligations.RegisterReadAfterWrite : Prop :=
  ∀ (s : State) (i : RegIdx) (v : Word),
    (i ≠ 0 → (s.writeReg i v).readReg i = v) ∧ (i = 0 → s.writeReg i v = s) ∧
    (∀ j, j ≠ i → (s.writeReg i v).readReg j = s.readReg j) ∧
    (s.writeReg i v).pc = s.pc ∧ (s.writeReg i v).imem = s.imem ∧ (s.writeReg i v).cfg = s.cfg

/-- Host-side register access (10_state.md section 6, D21, D22): an index outside 0 to 31 gives InvalidRegisterIndex; an index
inside reads the register, and a write stores the integer modulo 2^32 unless the index is 0. -/
def Obligations.HostAccessChecksTheIndex : Prop :=
  ∀ (s : State) (k v : Int),
    (¬ (0 ≤ k ∧ k ≤ 31) → s.hostRead k = .error (.invalidRegisterIndex k) ∧
      s.hostWrite k v = .error (.invalidRegisterIndex k)) ∧
    (0 ≤ k ∧ k ≤ 31 → s.hostRead k = .ok (s.readReg (BitVec.ofNat 5 k.toNat)) ∧
      ∃ t, s.hostWrite k v = .ok t ∧ t.pc = s.pc ∧ t.imem = s.imem ∧ t.cfg = s.cfg ∧
        (∃ y : Word, t.hostRead k = .ok y ∧ (y.toNat : Int) = if k = 0 then 0 else v % 2 ^ 32) ∧
        (∀ j, j ≠ k → t.hostRead j = s.hostRead j))

/-- The host's placing of a word (20_memory.md section 1; 70_reset_and_hazards.md section 2): that address then holds it, and
every other address reads as before; a number wider than an address places nothing (log entry 13). -/
def Obligations.PlacedWordIsFetched : Prop :=
  ∀ (s : State) (a : Nat) (v : Option Word), Memory.wf s.imem →
    (a < 2 ^ s.cfg.pcWidth → (s.placeWord a v).ifetch a = v) ∧
    (¬ a < 2 ^ s.cfg.pcWidth → s.placeWord a v = s) ∧
    ∀ b, b ≠ a → (s.placeWord a v).ifetch b = s.ifetch b

/-! ### Encoding -/

/-- R71, R72: each field is the word shifted right and masked to the field's width. -/
def Obligations.FieldsAreShiftThenMask : Prop :=
  ∀ w : Word,
    (opcodeOf w).toNat = w.toNat % 2 ^ 7 ∧ (rdOf w).toNat = w.toNat / 2 ^ 7 % 2 ^ 5 ∧
    (funct3Of w).toNat = w.toNat / 2 ^ 12 % 2 ^ 3 ∧ (rs1Of w).toNat = w.toNat / 2 ^ 15 % 2 ^ 5 ∧
    (rs2Of w).toNat = w.toNat / 2 ^ 20 % 2 ^ 5 ∧ (funct7Of w).toNat = w.toNat / 2 ^ 25 % 2 ^ 7

/-- R78: packing the six fields of any word gives the word back, and the fields of a packed tuple are the tuple. -/
def Obligations.FieldsAndPackingRoundTrip : Prop :=
  (∀ w : Word, pack (fieldsOf w) = w) ∧ ∀ f : Fields, fieldsOf (pack f) = f

/-- The I-format immediate (30_encoding.md section 5, D6): bits 31:20 sign-extended; its low five bits are the rs2 field, the
shift amount, and its upper seven are the funct7 field. -/
def Obligations.ImmediateIsSignExtended : Prop :=
  ∀ w : Word,
    (imm12Of w).toNat = w.toNat / 2 ^ 20 ∧ (sext12 (imm12Of w)).toNat = immValue (imm12Of w) ∧
    signed (sext12 (imm12Of w)) =
      (if (imm12Of w).toNat < 2048 then ((imm12Of w).toNat : Int) else (imm12Of w).toNat - 4096) ∧
    shiftAmount (sext12 (imm12Of w)) = (rs2Of w).toNat ∧ immFunct7 (imm12Of w) = funct7Of w

/-- Decoding the word of any well-formed instruction gives the instruction back, with every operand at every value. -/
def Obligations.DecodeOfEncodeIsTheInstruction : Prop :=
  ∀ i : Instr, i.wellFormed = true → decode (encode i) = i

/-- Every one of the 2^32 words decodes to a well-formed instruction whose word it is: no bit of a word is lost. -/
def Obligations.EncodeOfDecodeIsTheWord : Prop :=
  ∀ w : Word, (decode w).wellFormed = true ∧ encode (decode w) = w

/-- A few words written out from the spec's encodings decode to what they stand for (41_op_register_register.md,
42_op_immediate.md and 43_unhandled_opcodes.md, worked examples). -/
def Obligations.SampleWordsDecodeAsTheSpecReadsThem : Prop :=
  decode 0x00728133 = .add 2 5 7 ∧ decode 0x402081B3 = .sub 3 1 2 ∧ decode 0x0053A0B3 = .slt 1 7 5 0 ∧
  decode 0x4072D133 = .sra 2 5 7 ∧ decode 0xFFF08113 = .addi 2 1 0xFFF ∧ decode 0x40409193 = .slli 3 1 4 0x20 ∧
  decode 0x4040D413 = .srai 8 1 4 ∧ decode 0x00000063 = .branch 0 ∧ decode 0x123450B7 = .lui 0x2468A1 ∧
  decode 0x0220D633 = .opUnsupported 5 1 12 1 2 ∧ decode 0x0240D413 = .opImmUnsupported 5 8 1 0x024 ∧
  decode 0xFFFFFFFF = .unknown 0xFFFFFFFF

/-- The decoder's two answers (30_encoding.md sections 1, 2 and 6; opcode values D5): UnknownOpcode with the opcode field
exactly when the field is none of the ten values, and otherwise the six fields, with an immediate for OP-IMM alone. -/
def Obligations.DecoderAnswersOneOfTwo : Prop :=
  ∀ w : Word,
    (opcodeOf w ∉ tenOpcodes → decodeInstruction w = .error (.unknownOpcode (opcodeOf w)) ∧ decode w = .unknown w) ∧
    (opcodeOf w ∈ tenOpcodes → ∃ d, decodeInstruction w = .ok d ∧ d.fields = fieldsOf w ∧
      opcodeBits d.cls = opcodeOf w ∧ classOf (decode w) = some d.cls ∧
      d.imm = if opcodeOf w = 0x13 then some (sext12 (imm12Of w)) else none)

/-- The first row of the opcode table that takes a word is the row of the instruction it decodes to (30_encoding.md section
12), under the decided masks. -/
def Obligations.OpcodeTableFirstRowIsTheDecodedRow : Prop :=
  ∀ (c : Config) (w : Word), c.strictFunct7 = false →
    (tableRow c w).map (fun r => r.mnemonic) = some (mnemonicOf (decode w))

/-- The outcome column of the opcode table, with its strict masks and its SRA_IMPLEMENTED column, is the outcome of executing the
word (30_encoding.md section 12), whatever the registers. -/
def Obligations.OpcodeTableOutcomeIsTheOutcome : Prop :=
  ∀ (s : State) (w : Word), s.cfg.opimmImplemented = true →
    tableOutcome s.cfg w = codeOf (exec (decode w) s)

/-- The first 26 rows of the opcode table are pairwise disjoint, so that their order does not matter (30_encoding.md section
12). -/
def Obligations.OpcodeTableRowsAreDisjoint : Prop :=
  ∀ (c : Config) (w : Word) (r q : TableRow), r ∈ opRows ++ opImmRows ++ classRows → q ∈ opRows ++ opImmRows ++ classRows →
    r.takes c w = true → q.takes c w = true → r = q

/-- The counts of 30_encoding.md section 8: of the 1024 cells of each class, how many execute, under both readings of the dash,
with OPIMM_IMPLEMENTED true and SRA_IMPLEMENTED false, whatever the registers and pc hold. -/
def Obligations.ExecutingCellCounts : Prop :=
  ∀ s : State, s.cfg.opimmImplemented = true → s.cfg.sraImplemented = false →
    let executes (o : Opcode) (n : Nat) : Bool :=
      codeOf (exec (decode (pack ⟨o, 1, BitVec.ofNat 3 n, 2, 3, BitVec.ofNat 7 (n / 8)⟩)) s) == some .ok
    (List.range 1024).countP (executes 0x33) = (if s.cfg.strictFunct7 then 8 else 643) ∧
    (List.range 1024).countP (executes 0x13) = (if s.cfg.strictFunct7 then 770 else 897)

/-! ### The ALU -/

/-- R121, R122: sum and difference modulo 2^32, with the non-negative remainder. -/
def Obligations.AluAddAndSubWrap : Prop :=
  ∀ a b : Word, (alu .add a b).toNat = (a.toNat + b.toNat) % 2 ^ 32 ∧
    ((alu .sub a b).toNat : Int) = ((a.toNat : Int) - b.toNat) % 2 ^ 32

/-- R123, R124, R125: bit by bit. -/
def Obligations.AluBitwiseOperations : Prop :=
  ∀ (a b : Word) (i : Nat), i < 32 →
    ((alu .xor a b).getLsbD i = true ↔ a.getLsbD i ≠ b.getLsbD i) ∧
    ((alu .or a b).getLsbD i = true ↔ (a.getLsbD i = true ∨ b.getLsbD i = true)) ∧
    ((alu .and a b).getLsbD i = true ↔ (a.getLsbD i = true ∧ b.getLsbD i = true))

/-- R126, R127, R128: with n the low five bits of b, the product with 2^n modulo 2^32, the quotient by 2^n, and the floor of the
signed quotient by 2^n modulo 2^32. -/
def Obligations.AluShiftsByTheLowFiveBits : Prop :=
  ∀ a b : Word,
    (alu .sll a b).toNat = a.toNat * 2 ^ (b.toNat % 32) % 2 ^ 32 ∧
    (alu .srl a b).toNat = a.toNat / 2 ^ (b.toNat % 32) ∧
    ((alu .sra a b).toNat : Int) = signed a / 2 ^ (b.toNat % 32) % 2 ^ 32

/-- R129: 1 when the first operand is less than the second, both read as two's complement, else 0. -/
def Obligations.AluSignedComparison : Prop :=
  ∀ a b : Word, (alu .slt a b).toNat = if signed a < signed b then 1 else 0

/-- The unsigned comparison that serves SLTIU (40_execute_stage.md section 2, D4). -/
def Obligations.AluUnsignedComparison : Prop :=
  ∀ a b : Word, (alu .sltu a b).toNat = if a.toNat < b.toNat then 1 else 0

/-- Property 8 of 95_test_vectors.md: SUB undoes ADD of the same operand, and ADD undoes SUB. -/
def Obligations.SubUndoesAdd : Prop :=
  ∀ a b : Word, alu .sub (alu .add a b) b = a ∧ alu .add (alu .sub a b) b = a

/-! ### Register-register instructions -/

/-- R150: ADD. It completes in every state, for every register named, and its words decode to it. -/
def Obligations.AddCompletesWithTheSum : Prop :=
  (∀ (rd rs1 rs2 : RegIdx) (s : State), CompletesWith (.add rd rs1 rs2) s rd
    (((s.readReg rs1).toNat + (s.readReg rs2).toNat) % 2 ^ 32)) ∧
  HasEncoding 0xFE00707F 0x00000033 (fun w => .add (rdOf w) (rs1Of w) (rs2Of w))

/-- R151: SUB, the minuend being `x[rs1]`. -/
def Obligations.SubCompletesWithTheDifference : Prop :=
  (∀ (rd rs1 rs2 : RegIdx) (s : State), CompletesWith (.sub rd rs1 rs2) s rd
    ((((s.readReg rs1).toNat : Int) - (s.readReg rs2).toNat) % 2 ^ 32).toNat) ∧
  HasEncoding 0xFE00707F 0x40000033 (fun w => .sub (rdOf w) (rs1Of w) (rs2Of w))

/-- R152: SLL, where funct7 is not consulted or is 0000000; its words under the plain mask and under the strict one. -/
def Obligations.SllCompletesWithTheLeftShift : Prop :=
  (∀ (rd rs1 rs2 : RegIdx) (f7 : Funct7) (s : State), s.cfg.strictFunct7 = false ∨ f7 = 0 →
    CompletesWith (.sll rd rs1 rs2 f7) s rd
      ((s.readReg rs1).toNat * 2 ^ ((s.readReg rs2).toNat % 32) % 2 ^ 32)) ∧
  HasEncoding 0x0000707F 0x00001033 (fun w => .sll (rdOf w) (rs1Of w) (rs2Of w) (funct7Of w)) ∧
  HasEncoding 0xFE00707F 0x00001033 (fun w => .sll (rdOf w) (rs1Of w) (rs2Of w) 0)

/-- R153: SLT, on the register contents read as two's complement. -/
def Obligations.SltCompletesWithTheSignedComparison : Prop :=
  (∀ (rd rs1 rs2 : RegIdx) (f7 : Funct7) (s : State), s.cfg.strictFunct7 = false ∨ f7 = 0 →
    CompletesWith (.slt rd rs1 rs2 f7) s rd
      (if signed (s.readReg rs1) < signed (s.readReg rs2) then 1 else 0)) ∧
  HasEncoding 0x0000707F 0x00002033 (fun w => .slt (rdOf w) (rs1Of w) (rs2Of w) (funct7Of w)) ∧
  HasEncoding 0xFE00707F 0x00002033 (fun w => .slt (rdOf w) (rs1Of w) (rs2Of w) 0)

/-- R154, R157, R160: XOR, OR, AND. -/
def Obligations.BitwiseRegisterInstructionsComplete : Prop :=
  (∀ (rd rs1 rs2 : RegIdx) (f7 : Funct7) (s : State), s.cfg.strictFunct7 = false ∨ f7 = 0 →
    CompletesWith (.xor rd rs1 rs2 f7) s rd ((s.readReg rs1).toNat ^^^ (s.readReg rs2).toNat) ∧
    CompletesWith (.or rd rs1 rs2 f7) s rd ((s.readReg rs1).toNat ||| (s.readReg rs2).toNat) ∧
    CompletesWith (.and rd rs1 rs2 f7) s rd ((s.readReg rs1).toNat &&& (s.readReg rs2).toNat)) ∧
  HasEncoding 0x0000707F 0x00004033 (fun w => .xor (rdOf w) (rs1Of w) (rs2Of w) (funct7Of w)) ∧
  HasEncoding 0xFE00707F 0x00004033 (fun w => .xor (rdOf w) (rs1Of w) (rs2Of w) 0) ∧
  HasEncoding 0x0000707F 0x00006033 (fun w => .or (rdOf w) (rs1Of w) (rs2Of w) (funct7Of w)) ∧
  HasEncoding 0xFE00707F 0x00006033 (fun w => .or (rdOf w) (rs1Of w) (rs2Of w) 0) ∧
  HasEncoding 0x0000707F 0x00007033 (fun w => .and (rdOf w) (rs1Of w) (rs2Of w) (funct7Of w)) ∧
  HasEncoding 0xFE00707F 0x00007033 (fun w => .and (rdOf w) (rs1Of w) (rs2Of w) 0)

/-- R155: SRL. -/
def Obligations.SrlCompletesWithTheRightShift : Prop :=
  (∀ (rd rs1 rs2 : RegIdx) (s : State), CompletesWith (.srl rd rs1 rs2) s rd
    ((s.readReg rs1).toNat / 2 ^ ((s.readReg rs2).toNat % 32))) ∧
  HasEncoding 0xFE00707F 0x00005033 (fun w => .srl (rdOf w) (rs1Of w) (rs2Of w))

/-- R156: SRA. With SRA_IMPLEMENTED false it raises UnsupportedOperation whatever the registers named; with it true it completes
with the sign-filled shift. -/
def Obligations.SraFollowsItsSwitch : Prop :=
  (∀ (rd rs1 rs2 : RegIdx) (s : State), s.cfg.sraImplemented = true →
    CompletesWith (.sra rd rs1 rs2) s rd
      (signed (s.readReg rs1) / 2 ^ ((s.readReg rs2).toNat % 32) % 2 ^ 32).toNat) ∧
  (∀ (rd rs1 rs2 : RegIdx) (s : State), s.cfg.sraImplemented = false →
    RaisesUnsupported (.sra rd rs1 rs2) s 0b0110011 0b101 0b0100000) ∧
  HasEncoding 0xFE00707F 0x40005033 (fun w => .sra (rdOf w) (rs1Of w) (rs2Of w))

/-- The empty cells of class OP (41_op_register_register.md, OP encodings with no instruction; D4 for funct3 011): every such word
raises UnsupportedOperation with its triple under every configuration. -/
def Obligations.EmptyOpCellsRaiseUnsupported : Prop :=
  (∀ (f3 : Funct3) (f7 : Funct7) (rd rs1 rs2 : RegIdx) (s : State),
    RaisesUnsupported (.opUnsupported f3 f7 rd rs1 rs2) s 0b0110011 f3 f7) ∧
  ∀ w : Word, opcodeOf w = 0b0110011 →
    (funct3Of w = 0b011 ∨
      ((funct3Of w = 0b000 ∨ funct3Of w = 0b101) ∧ funct7Of w ≠ 0b0000000 ∧ funct7Of w ≠ 0b0100000)) →
    decode w = .opUnsupported (funct3Of w) (funct7Of w) (rdOf w) (rs1Of w) (rs2Of w)

/-- STRICT_FUNCT7 true (30_encoding.md section 7, D3): the five dash rows and SLLI raise UnsupportedOperation when funct7 is not
0000000. -/
def Obligations.StrictDashRowsRaiseUnsupported : Prop :=
  ∀ (rd rs1 rs2 : RegIdx) (shamt : BitVec 5) (f7 : Funct7) (s : State), s.cfg.strictFunct7 = true → f7 ≠ 0 →
    RaisesUnsupported (.sll rd rs1 rs2 f7) s 0b0110011 0b001 f7 ∧
    RaisesUnsupported (.slt rd rs1 rs2 f7) s 0b0110011 0b010 f7 ∧
    RaisesUnsupported (.xor rd rs1 rs2 f7) s 0b0110011 0b100 f7 ∧
    RaisesUnsupported (.or rd rs1 rs2 f7) s 0b0110011 0b110 f7 ∧
    RaisesUnsupported (.and rd rs1 rs2 f7) s 0b0110011 0b111 f7 ∧
    RaisesUnsupported (.slli rd rs1 shamt f7) s 0b0010011 0b001 f7

/-- The strict reading refuses more and agrees on the rest (41_op_register_register.md, D3): what completes under STRICT_FUNCT7
completes without it, with the same registers, pc and instruction source. -/
def Obligations.StrictReadingOnlyRefusesMore : Prop :=
  ∀ (i : Instr) (s t : State), s.cfg.strictFunct7 = true → exec i s = .next t →
    exec i s.loosened = .next t.loosened

/-! ### Register-immediate instructions (42_op_immediate.md; all of them rest on D1, D6 and the opcode and funct3 values of D4, D5) -/

/-- ADDI, under OPIMM_IMPLEMENTED. -/
def Obligations.AddiCompletesWithTheSum : Prop :=
  (∀ (rd rs1 : RegIdx) (imm : Imm12) (s : State), s.cfg.opimmImplemented = true →
    CompletesWith (.addi rd rs1 imm) s rd (((s.readReg rs1).toNat + immValue imm) % 2 ^ 32)) ∧
  HasEncoding 0x0000707F 0x00000013 (fun w => .addi (rdOf w) (rs1Of w) (imm12Of w))

/-- SLLI, where its upper seven immediate bits are not consulted or are 0000000: the amount is `w[24:20]`. -/
def Obligations.SlliCompletesWithTheLeftShift : Prop :=
  (∀ (rd rs1 : RegIdx) (shamt : BitVec 5) (f7 : Funct7) (s : State), s.cfg.opimmImplemented = true →
    s.cfg.strictFunct7 = false ∨ f7 = 0 →
    CompletesWith (.slli rd rs1 shamt f7) s rd ((s.readReg rs1).toNat * 2 ^ shamt.toNat % 2 ^ 32)) ∧
  HasEncoding 0x0000707F 0x00001013 (fun w => .slli (rdOf w) (rs1Of w) (rs2Of w) (funct7Of w)) ∧
  HasEncoding 0xFE00707F 0x00001013 (fun w => .slli (rdOf w) (rs1Of w) (rs2Of w) 0)

/-- SLTI compares as two's complement, SLTIU the sign-extended immediate as unsigned (D4). -/
def Obligations.ImmediateComparisonsComplete : Prop :=
  (∀ (rd rs1 : RegIdx) (imm : Imm12) (s : State), s.cfg.opimmImplemented = true →
    CompletesWith (.slti rd rs1 imm) s rd (if signed (s.readReg rs1) < signed (sext12 imm) then 1 else 0) ∧
    CompletesWith (.sltiu rd rs1 imm) s rd (if (s.readReg rs1).toNat < immValue imm then 1 else 0)) ∧
  HasEncoding 0x0000707F 0x00002013 (fun w => .slti (rdOf w) (rs1Of w) (imm12Of w)) ∧
  HasEncoding 0x0000707F 0x00003013 (fun w => .sltiu (rdOf w) (rs1Of w) (imm12Of w))

/-- XORI, ORI, ANDI with the sign-extended immediate. -/
def Obligations.BitwiseImmediateInstructionsComplete : Prop :=
  (∀ (rd rs1 : RegIdx) (imm : Imm12) (s : State), s.cfg.opimmImplemented = true →
    CompletesWith (.xori rd rs1 imm) s rd ((s.readReg rs1).toNat ^^^ immValue imm) ∧
    CompletesWith (.ori rd rs1 imm) s rd ((s.readReg rs1).toNat ||| immValue imm) ∧
    CompletesWith (.andi rd rs1 imm) s rd ((s.readReg rs1).toNat &&& immValue imm)) ∧
  HasEncoding 0x0000707F 0x00004013 (fun w => .xori (rdOf w) (rs1Of w) (imm12Of w)) ∧
  HasEncoding 0x0000707F 0x00006013 (fun w => .ori (rdOf w) (rs1Of w) (imm12Of w)) ∧
  HasEncoding 0x0000707F 0x00007013 (fun w => .andi (rdOf w) (rs1Of w) (imm12Of w))

/-- SRLI: the amount is `w[24:20]`. -/
def Obligations.SrliCompletesWithTheRightShift : Prop :=
  (∀ (rd rs1 : RegIdx) (shamt : BitVec 5) (s : State), s.cfg.opimmImplemented = true →
    CompletesWith (.srli rd rs1 shamt) s rd ((s.readReg rs1).toNat / 2 ^ shamt.toNat)) ∧
  HasEncoding 0xFE00707F 0x00005013 (fun w => .srli (rdOf w) (rs1Of w) (rs2Of w))

/-- SRAI follows SRA's switch (D2): the sign-filled shift by `w[24:20]` when true, UnsupportedOperation when false. -/
def Obligations.SraiFollowsItsSwitch : Prop :=
  (∀ (rd rs1 : RegIdx) (shamt : BitVec 5) (s : State), s.cfg.opimmImplemented = true → s.cfg.sraImplemented = true →
    CompletesWith (.srai rd rs1 shamt) s rd (signed (s.readReg rs1) / 2 ^ shamt.toNat % 2 ^ 32).toNat) ∧
  (∀ (rd rs1 : RegIdx) (shamt : BitVec 5) (s : State), s.cfg.sraImplemented = false →
    RaisesUnsupported (.srai rd rs1 shamt) s 0b0010011 0b101 0b0100000) ∧
  HasEncoding 0xFE00707F 0x40005013 (fun w => .srai (rdOf w) (rs1Of w) (rs2Of w))

/-- The empty cells of class OP-IMM: funct3 101 with an unlisted funct7 raises UnsupportedOperation under every configuration. -/
def Obligations.EmptyOpImmCellsRaiseUnsupported : Prop :=
  (∀ (f3 : Funct3) (rd rs1 : RegIdx) (imm : Imm12) (s : State),
    RaisesUnsupported (.opImmUnsupported f3 rd rs1 imm) s 0b0010011 f3 (immFunct7 imm)) ∧
  ∀ w : Word, opcodeOf w = 0b0010011 → funct3Of w = 0b101 → funct7Of w ≠ 0b0000000 → funct7Of w ≠ 0b0100000 →
    decode w = .opImmUnsupported 0b101 (rdOf w) (rs1Of w) (imm12Of w)

/-- OPIMM_IMPLEMENTED false (42_op_immediate.md, D1): every word of the class raises UnsupportedOperation with its triple. -/
def Obligations.DisabledOpImmClassRaisesUnsupported : Prop :=
  ∀ (w : Word) (s : State), s.cfg.opimmImplemented = false → opcodeOf w = 0b0010011 →
    RaisesUnsupported (decode w) s 0b0010011 (funct3Of w) (funct7Of w)

/-! ### Classes with no semantics (43_unhandled_opcodes.md; opcode values D5, state unchanged D12) -/

/-- The eight recognised and unhandled classes end with NotImplemented, whatever the other 25 bits and whatever the state, and
are selected by the opcode alone. -/
def Obligations.UnhandledClassesAreNotImplemented : Prop :=
  (∀ (rest : BitVec 25) (s : State),
    RaisesNotImplemented (.load rest) s .load ∧ RaisesNotImplemented (.store rest) s .store ∧
    RaisesNotImplemented (.branch rest) s .branch ∧ RaisesNotImplemented (.jal rest) s .jal ∧
    RaisesNotImplemented (.jalr rest) s .jalr ∧ RaisesNotImplemented (.system rest) s .system ∧
    RaisesNotImplemented (.lui rest) s .lui ∧ RaisesNotImplemented (.auipc rest) s .auipc) ∧
  HasEncoding 0x0000007F 0x00000003 (fun w => .load (restOf w)) ∧
  HasEncoding 0x0000007F 0x00000023 (fun w => .store (restOf w)) ∧
  HasEncoding 0x0000007F 0x00000063 (fun w => .branch (restOf w)) ∧
  HasEncoding 0x0000007F 0x0000006F (fun w => .jal (restOf w)) ∧
  HasEncoding 0x0000007F 0x00000067 (fun w => .jalr (restOf w)) ∧
  HasEncoding 0x0000007F 0x00000073 (fun w => .system (restOf w)) ∧
  HasEncoding 0x0000007F 0x00000037 (fun w => .lui (restOf w)) ∧
  HasEncoding 0x0000007F 0x00000017 (fun w => .auipc (restOf w))

/-- A word whose opcode is none of the ten raises UnknownOpcode with its opcode field, and the state is the one from before. -/
def Obligations.UnknownOpcodesAreReported : Prop :=
  (∀ (w : Word) (s : State), exec (.unknown w) s = .fault (.unknownOpcode (opcodeOf w)) ∧
    stateAfter s (exec (.unknown w) s) = s) ∧
  ∀ w : Word, opcodeOf w ∉ tenOpcodes → decode w = .unknown w

/-! ### The step -/

/-- A step at a state whose pc holds a word is the execution of the instruction the word decodes to, in that state: pc's advance
is part of the instruction's own effect, and the step adds nothing around it. -/
def Obligations.StepRunsTheDecodedInstruction : Prop :=
  ∀ (s : State) (w : Word), s.ifetch s.pc = some w → step s = exec (decode w) s

/-- Where the instruction source holds no word at pc, the step raises FetchUnavailable(pc) (20_memory.md section 1, D10), the
state stays, and nothing is decoded. -/
def Obligations.AbsentWordRaisesFetchUnavailable : Prop :=
  ∀ s : State, s.ifetch s.pc = none → step s = .fault (.fetchUnavailable s.pc) ∧ stateAfter s (step s) = s

/-- A word placed by `withFetchWord` is the one the next step runs, in the state with nothing else changed. (Where pc holds a
number wider than an address, which the invariant rules out, no word can stand there and nothing is placed.) -/
def Obligations.PlacedInstructionRunsNext : Prop :=
  ∀ (s : State) (n w : Nat), Memory.wf s.imem →
    (s.pc < 2 ^ s.cfg.pcWidth →
      step (s.withFetchWord n w) = exec (decode (BitVec.ofNat 32 w)) (s.withFetchWord n w)) ∧
    (¬ s.pc < 2 ^ s.cfg.pcWidth → s.withFetchWord n w = s) ∧
    (s.withFetchWord n w).regs = s.regs ∧ (s.withFetchWord n w).pc = s.pc ∧ (s.withFetchWord n w).cfg = s.cfg ∧
    ∀ a, a ≠ s.pc → (s.withFetchWord n w).ifetch a = s.ifetch a

/-- The frame of every instruction (10_state.md section 2; property 3 of 95_test_vectors.md): where it completes, the next state
differs in the destination register its row names and in pc, which is 4 more modulo 2 to the power PC_WIDTH (the wrap is D8,
log entry 13), and in nothing else. -/
def Obligations.CompletedInstructionWritesOnlyItsDestination : Prop :=
  ∀ (i : Instr) (s t : State), exec i s = .next t →
    ∃ rd, destOf i = some rd ∧ OnlyWrites s t rd ∧ t.pc = (s.pc + 4) % 2 ^ s.cfg.pcWidth ∧ t.imem = s.imem

/-- An instruction's result depends on its source registers alone (10_state.md section 2): two states that agree on the
configuration and on those registers give the same outcome, and the same value in the destination. -/
def Obligations.ResultDependsOnSourceRegistersOnly : Prop :=
  ∀ (i : Instr) (s s' : State), s.cfg = s'.cfg → (∀ r ∈ sourcesOf i, s.readReg r = s'.readReg r) →
    (∀ t, exec i s = .next t → ∃ t', exec i s' = .next t' ∧ ∀ rd, destOf i = some rd → t'.readReg rd = t.readReg rd) ∧
    (∀ f, exec i s = .fault f → exec i s' = .fault f) ∧
    (∀ r, exec i s = .refused r → exec i s' = .refused r)

/-- Property 5 of 95_test_vectors.md: the outcome of a fetched word depends on its opcode, funct3 and funct7 and on the
configuration, and on no register, on no other bit and not on pc. -/
def Obligations.OutcomeDependsOnThreeFieldsOnly : Prop :=
  ∀ (s s' : State) (w w' : Word), s.cfg = s'.cfg → opcodeOf w = opcodeOf w' → funct3Of w = funct3Of w' →
    funct7Of w = funct7Of w' → codeOf (exec (decode w) s) = codeOf (exec (decode w') s')

/-- Every step has one of the five outcomes a step can have (40_execute_stage.md section 1), and none of them is
InvalidRegisterIndex. -/
def Obligations.EveryStepHasAnOutcomeCode : Prop :=
  ∀ s : State, codeOf (step s) ≠ none ∧ ∀ k, step s ≠ .fault (.invalidRegisterIndex k)

/-- Every step keeps the invariant: the hardwired slot holds 0, pc is a number of PC_WIDTH bits, and the instruction source is
in canonical form with addresses of that width. -/
def Obligations.StepKeepsTheInvariant : Prop :=
  ∀ s t : State, s.Inv → step s = .next t → t.Inv

/-- The invariant holds at reset. -/
def Obligations.ResetMeetsTheInvariant : Prop := State.reset.Inv

/-- The invariant holds in every launched state, whatever the host supplies, and the host's own edits keep it. -/
def Obligations.LaunchAndHostEditsMeetTheInvariant : Prop :=
  (∀ (c : Config) (m : List (Nat × Word)) (init : RegIdx → Int) (pc0 : Int), (State.launch c m init pc0).Inv) ∧
  (∀ (s t : State) (k v : Int), s.Inv → s.hostWrite k v = .ok t → t.Inv) ∧
  ∀ (s : State) (a : Nat) (v : Option Word), s.Inv → (s.placeWord a v).Inv ∧ s.hostSkip.Inv

/-- The step is the spec's pseudocode of section 1 of 40_execute_stage.md, on every state and every configuration. -/
def Obligations.StepIsTheSpecsPseudocode : Prop :=
  ∀ s : State, step s = referenceStep s

/-- One clock cycle of the block diagram (40_execute_stage.md sections 1 and 2; the spec's own rendering, D16) has the outcome
code of the step and leaves the state the step leaves. -/
def Obligations.ClockCycleIsTheStep : Prop :=
  ∀ s : State, some (clockCycle s).1 = codeOf (step s) ∧ (clockCycle s).2 = stateAfter s (step s)

/-- A run from any state whose pc is a number of PC_WIDTH bits (10_state.md section 3, D8, D15; `StepKeepsTheInvariant` says that
a step keeps pc so): pc is 4 times the number of Ok steps further on, modulo 2 to the power PC_WIDTH. A run from any state keeps
pc modulo 4 where PC_WIDTH is at least 2, the instruction source, the configuration and the invariant. -/
def Obligations.RunAdvancesPcByFourPerStep : Prop :=
  ∀ (n : Nat) (s : State),
    (runUpTo n s).okSteps ≤ n ∧
    (s.pc < 2 ^ s.cfg.pcWidth →
      (runUpTo n s).final.pc = (s.pc + 4 * (runUpTo n s).okSteps) % 2 ^ s.cfg.pcWidth) ∧
    (2 ≤ s.cfg.pcWidth → (runUpTo n s).final.pc % 4 = s.pc % 4) ∧
    (runUpTo n s).final.imem = s.imem ∧ (runUpTo n s).final.cfg = s.cfg ∧
    (s.Inv → (runUpTo n s).final.Inv)

/-- A run ends at the first outcome that is not Ok, in the state that step was given (40_execute_stage.md section 4, D17;
60_exceptions.md section 4). The steps it counts as Ok are that many steps of the machine from `s`, each answering a next state,
the last one the run's final state; a run that reports no outcome took all `n` of them; a run that reports one is given it by
the very next step, so that outcome is the first that is not Ok; and a longer run ends there too. -/
def Obligations.RunEndsAtTheFirstError : Prop :=
  ∀ (n k : Nat) (s : State),
    Sys2Proof.core.run (runUpTo n s).okSteps s = .next (runUpTo n s).final ∧
    ((runUpTo n s).ended = .stepsDone → (runUpTo n s).okSteps = n) ∧
    (∀ f, (runUpTo n s).ended = .fault f → (runUpTo n s).okSteps < n ∧ step (runUpTo n s).final = .fault f ∧
      runUpTo (n + k) s = runUpTo n s) ∧
    (∀ r, (runUpTo n s).ended = .refused r → (runUpTo n s).okSteps < n ∧ step (runUpTo n s).final = .refused r ∧
      runUpTo (n + k) s = runUpTo n s)
end

