-- ==== Sys2Proof/Laws/Decode.lean ====
section
/-! SUPPORT. Each field of a packed word, each field under a mask, and the class of an opcode: what a proof about decoding
cites. -/

namespace Sys2Proof

theorem opcodeOf_pack (f : Fields) : opcodeOf (pack f) = f.opcode := by
  ext i hi; interval_cases i <;> simp [pack, opcodeOf]

theorem rdOf_pack (f : Fields) : rdOf (pack f) = f.rd := by
  ext i hi; interval_cases i <;> simp [pack, rdOf]

theorem funct3Of_pack (f : Fields) : funct3Of (pack f) = f.funct3 := by
  ext i hi; interval_cases i <;> simp [pack, funct3Of]

theorem rs1Of_pack (f : Fields) : rs1Of (pack f) = f.rs1 := by
  ext i hi; interval_cases i <;> simp [pack, rs1Of]

theorem rs2Of_pack (f : Fields) : rs2Of (pack f) = f.rs2 := by
  ext i hi; interval_cases i <;> simp [pack, rs2Of]

theorem funct7Of_pack (f : Fields) : funct7Of (pack f) = f.funct7 := by
  ext i hi; interval_cases i <;> simp [pack, funct7Of]

/-- The immediate's bits of a word are its funct7 over its rs2 (R80). -/
theorem imm12Of_eq (w : Word) : imm12Of w = shiftImm (funct7Of w) (rs2Of w) := by
  ext i hi; interval_cases i <;> simp [shiftImm, funct7Of, rs2Of, imm12Of]

/-- An immediate is its upper seven bits over its lower five (R80). -/
theorem shiftImm_split (v : Imm12) : shiftImm (immFunct7 v) (v.extractLsb' 0 5) = v := by
  ext i hi; interval_cases i <;> simp [shiftImm, immFunct7]

@[simp] theorem immFunct7_shiftImm (f7 : Funct7) (v : BitVec 5) : immFunct7 (shiftImm f7 v) = f7 := by
  ext i hi; interval_cases i <;> simp [shiftImm, immFunct7]

@[simp] theorem low_shiftImm (f7 : Funct7) (v : BitVec 5) : (shiftImm f7 v).extractLsb' 0 5 = v := by
  ext i hi; interval_cases i <;> simp [shiftImm]

theorem opcodeOf_packClass (c : OpcodeClass) (rest : BitVec 25) : opcodeOf (packClass c rest) = opcodeBits c := by
  ext i hi; interval_cases i <;> simp [packClass, opcodeOf]

theorem restOf_packClass (c : OpcodeClass) (rest : BitVec 25) : restOf (packClass c rest) = rest := by
  ext i hi; interval_cases i <;> simp [packClass, restOf]

/-- Each class's opcode is recognised as that class (R75). -/
theorem recognise_opcodeBits (c : OpcodeClass) : recognise (opcodeBits c) = some c := by
  cases c <;> rfl

/-- An opcode recognised as a class is that class's opcode (R75). -/
theorem opcodeBits_of_recognise {o : Opcode} {c : OpcodeClass} (h : recognise o = some c) : o = opcodeBits c := by
  unfold recognise at h
  repeat' (split at h)
  all_goals first
    | (cases h; assumption)
    | exact nomatch h

/-- A field under a mask is the field masked by the mask's field. -/
theorem opcodeOf_and (w m : Word) : opcodeOf (w &&& m) = opcodeOf w &&& opcodeOf m := by
  ext i hi; simp [opcodeOf]

theorem funct3Of_and (w m : Word) : funct3Of (w &&& m) = funct3Of w &&& funct3Of m := by
  ext i hi; simp [funct3Of]

theorem funct7Of_and (w m : Word) : funct7Of (w &&& m) = funct7Of w &&& funct7Of m := by
  ext i hi; simp [funct7Of]

end Sys2Proof
end

