-- ==== Sys2Proof/Laws/State.lean ====
section
/-! SUPPORT. What each operation on the state leaves in each field and in each register: no later proof unfolds a record
update. -/

namespace Sys2Proof.Machine

/-! ### pc as a number of `PC_WIDTH` bits -/

theorem wrapPc_lt (c : Config) (n : Nat) : wrapPc c n < 2 ^ c.pcWidth := Nat.mod_lt _ (Nat.two_pow_pos _)

theorem wrapPc_of_lt {c : Config} {n : Nat} (h : n < 2 ^ c.pcWidth) : wrapPc c n = n := Nat.mod_eq_of_lt h

/-! ### Fields -/

@[simp] theorem State.writeReg_pc (s : State) (i : RegIdx) (v : Word) : (s.writeReg i v).pc = s.pc := by
  unfold State.writeReg; split <;> rfl

@[simp] theorem State.writeReg_imem (s : State) (i : RegIdx) (v : Word) : (s.writeReg i v).imem = s.imem := by
  unfold State.writeReg; split <;> rfl

@[simp] theorem State.writeReg_cfg (s : State) (i : RegIdx) (v : Word) : (s.writeReg i v).cfg = s.cfg := by
  unfold State.writeReg; split <;> rfl

@[simp] theorem State.advance_regs (s : State) : s.advance.regs = s.regs := rfl
@[simp] theorem State.advance_pc (s : State) : s.advance.pc = wrapPc s.cfg (s.pc + 4) := rfl
@[simp] theorem State.advance_imem (s : State) : s.advance.imem = s.imem := rfl
@[simp] theorem State.advance_cfg (s : State) : s.advance.cfg = s.cfg := rfl

@[simp] theorem State.placeWord_regs (s : State) (a : Nat) (v : Option Word) : (s.placeWord a v).regs = s.regs := rfl
@[simp] theorem State.placeWord_pc (s : State) (a : Nat) (v : Option Word) : (s.placeWord a v).pc = s.pc := rfl
@[simp] theorem State.placeWord_cfg (s : State) (a : Nat) (v : Option Word) : (s.placeWord a v).cfg = s.cfg := rfl
@[simp] theorem State.placeWord_imem (s : State) (a : Nat) (v : Option Word) :
    (s.placeWord a v).imem = s.imem.place s.cfg a v := rfl

@[simp] theorem State.launch_pc (c : Config) (m : List (Nat × Word)) (r : RegIdx → Int) (p : Int) :
    (State.launch c m r p).pc = (p % 2 ^ c.pcWidth).toNat := rfl
@[simp] theorem State.launch_cfg (c : Config) (m : List (Nat × Word)) (r : RegIdx → Int) (p : Int) :
    (State.launch c m r p).cfg = c := rfl
@[simp] theorem State.launch_imem (c : Config) (m : List (Nat × Word)) (r : RegIdx → Int) (p : Int) :
    (State.launch c m r p).imem = Memory.ofList c m := rfl
@[simp] theorem State.launch_regs (c : Config) (m : List (Nat × Word)) (r : RegIdx → Int) (p : Int) :
    (State.launch c m r p).regs = seedRegs r := rfl

/-! ### Reads -/

@[simp] theorem State.readReg_advance (s : State) (i : RegIdx) : s.advance.readReg i = s.readReg i := rfl

@[simp] theorem State.readReg_placeWord (s : State) (a : Nat) (v : Option Word) (i : RegIdx) :
    (s.placeWord a v).readReg i = s.readReg i := rfl

/-- A read looks at `regs` alone. -/
theorem State.readReg_congr {s t : State} (h : t.regs = s.regs) (i : RegIdx) : t.readReg i = s.readReg i := by
  unfold State.readReg; rw [h]

@[simp] theorem State.ifetch_writeReg (s : State) (i : RegIdx) (v : Word) (a : Nat) :
    (s.writeReg i v).ifetch a = s.ifetch a := by
  unfold State.ifetch; rw [State.writeReg_imem]

@[simp] theorem State.ifetch_advance (s : State) (a : Nat) : s.advance.ifetch a = s.ifetch a := rfl

/-! ### The slots -/

/-- A write to slot 0 has no effect at all (R23). -/
theorem State.writeReg_zero_eq (s : State) (v : Word) : s.writeReg 0 v = s := by
  simp [State.writeReg]

/-- The slots after a write to another register than 0. -/
theorem State.writeReg_regs (s : State) {i : RegIdx} (h : i ≠ 0) (v : Word) :
    (s.writeReg i v).regs = s.regs.set i.toNat v i.isLt := by
  rw [State.writeReg, if_neg h]

/-- Slot 0 keeps what it holds whatever is written where. -/
theorem State.writeReg_slot_zero (s : State) (i : RegIdx) (v : Word) :
    (s.writeReg i v).regs.get 0 = s.regs.get 0 := by
  by_cases h : i = 0
  · subst h; rw [State.writeReg_zero_eq]
  · have hne : i.toNat ≠ 0 := fun h0 => h (BitVec.eq_of_toNat_eq h0)
    rw [State.writeReg_regs s h]
    exact Vector.getElem_set_ne i.isLt (by decide) hne

/-! ### After a result -/

@[simp] theorem stateAfter_next (s t : State) : stateAfter s (.next t) = t := rfl
@[simp] theorem stateAfter_fault (s : State) (f : Fault) : stateAfter s (.fault f) = s := rfl
@[simp] theorem stateAfter_refused (s : State) (r : Refusal) : stateAfter s (.refused r) = s := rfl

end Sys2Proof.Machine
end

