-- ==== Sys2Proof/Laws/Execute.lean ====
section
/-! SUPPORT. Everything the shared operations of the meanings can do: what a completed operation leaves, and when a
configuration check lets it run. A proof about an instruction cites these and unfolds none of the operations. -/

namespace Sys2Proof.Machine

@[simp] theorem State.complete_pc (s : State) (rd : RegIdx) (y : Word) :
    (s.complete rd y).pc = wrapPc s.cfg (s.pc + 4) := by
  simp [State.complete]

@[simp] theorem State.complete_imem (s : State) (rd : RegIdx) (y : Word) : (s.complete rd y).imem = s.imem := by
  simp [State.complete]

@[simp] theorem State.complete_cfg (s : State) (rd : RegIdx) (y : Word) : (s.complete rd y).cfg = s.cfg := by
  simp [State.complete]

/-- Slot 0 is kept by a completed operation. -/
theorem State.complete_slot_zero (s : State) (rd : RegIdx) (y : Word) :
    (s.complete rd y).regs.get 0 = s.regs.get 0 := State.writeReg_slot_zero s rd y

/-- A register-register operation completes, whatever the state: its next state. -/
theorem runOp_eq (op : AluOp) (rd rs1 rs2 : RegIdx) (s : State) :
    runOp op rd rs1 rs2 s = .next (s.complete rd (alu op (s.readReg rs1) (s.readReg rs2))) := rfl

/-- A register-immediate operation completes, whatever the state: its next state. -/
theorem runOpImm_eq (op : AluOp) (rd rs1 : RegIdx) (imm : Imm12) (s : State) :
    runOpImm op rd rs1 imm s = .next (s.complete rd (alu op (s.readReg rs1) (sext12 imm))) := rfl

/-- A dash row runs when funct7 is not consulted or is 0000000. -/
theorem dashRow_runs {cls : OpcodeClass} {f3 : Funct3} {f7 : Funct7} {s : State} {run : Result}
    (h : s.cfg.strictFunct7 = false ∨ f7 = 0) : dashRow cls f3 f7 s run = run := by
  unfold dashRow; rw [if_neg]; rintro ⟨h1, h2⟩; rcases h with h | h
  · simp [h] at h1
  · exact h2 h

/-- A dash row raises UnsupportedOperation under `STRICT_FUNCT7` when funct7 is not 0000000. -/
theorem dashRow_raises {cls : OpcodeClass} {f3 : Funct3} {f7 : Funct7} {s : State} {run : Result}
    (h : s.cfg.strictFunct7 = true) (h7 : f7 ≠ 0) : dashRow cls f3 f7 s run = raiseUnsupported cls f3 f7 :=
  if_pos ⟨h, h7⟩

/-- A word of the register-immediate class runs under `OPIMM_IMPLEMENTED`. -/
theorem opImmClass_runs {f3 : Funct3} {f7 : Funct7} {s : State} {run : Result}
    (h : s.cfg.opimmImplemented = true) : opImmClass f3 f7 s run = run := if_pos h

/-- Without `OPIMM_IMPLEMENTED` every word of the register-immediate class raises UnsupportedOperation. -/
theorem opImmClass_raises {f3 : Funct3} {f7 : Funct7} {s : State} {run : Result}
    (h : s.cfg.opimmImplemented = false) : opImmClass f3 f7 s run = raiseUnsupported .opImm f3 f7 :=
  if_neg (by simp [h])

/-- The arithmetic right shift runs under `SRA_IMPLEMENTED`. -/
theorem sraRow_runs {cls : OpcodeClass} {s : State} {run : Result}
    (h : s.cfg.sraImplemented = true) : sraRow cls s run = run := if_pos h

/-- Without `SRA_IMPLEMENTED` the arithmetic right shift raises UnsupportedOperation. -/
theorem sraRow_raises {cls : OpcodeClass} {s : State} {run : Result}
    (h : s.cfg.sraImplemented = false) : sraRow cls s run = raiseUnsupported cls 0b101 0b0100000 :=
  if_neg (by simp [h])

/-- Everything `exec` can do: complete with one value into the row's destination register, or raise one of the four outcomes a
fetched word can have. -/
theorem exec_cases (i : Instr) (s : State) :
    (∃ rd y, destOf i = some rd ∧ exec i s = .next (s.complete rd y)) ∨
    (∃ c f3 f7, exec i s = raiseUnsupported c f3 f7) ∨
    (∃ c, exec i s = raiseNotImplemented c) ∨
    (∃ o, exec i s = raiseUnknown o) := by
  have dash : ∀ c f3 f7 rd y, (dashRow c f3 f7 s (.next (s.complete rd y)) = .next (s.complete rd y)) ∨
      dashRow c f3 f7 s (.next (s.complete rd y)) = raiseUnsupported c f3 f7 := by
    intros; unfold dashRow; split <;> simp
  have imm : ∀ f3 f7 run, opImmClass f3 f7 s run = run ∨ opImmClass f3 f7 s run = raiseUnsupported .opImm f3 f7 := by
    intros; unfold opImmClass; split <;> simp
  have sra : ∀ c run, sraRow c s run = run ∨ sraRow c s run = raiseUnsupported c 0b101 0b0100000 := by
    intros; unfold sraRow; split <;> simp
  cases i with
  | add rd rs1 rs2 => exact .inl ⟨rd, _, rfl, rfl⟩
  | sub rd rs1 rs2 => exact .inl ⟨rd, _, rfl, rfl⟩
  | srl rd rs1 rs2 => exact .inl ⟨rd, _, rfl, rfl⟩
  | sll rd rs1 rs2 f7 | slt rd rs1 rs2 f7 | xor rd rs1 rs2 f7 | or rd rs1 rs2 f7 | and rd rs1 rs2 f7 =>
    exact (dash _ _ f7 rd _).imp (fun h => ⟨rd, _, rfl, h⟩) (fun h => .inl ⟨_, _, _, h⟩)
  | sra rd rs1 rs2 => exact (sra .op _).imp (fun h => ⟨rd, _, rfl, h⟩) (fun h => .inl ⟨_, _, _, h⟩)
  | addi rd rs1 v | slti rd rs1 v | sltiu rd rs1 v | xori rd rs1 v | ori rd rs1 v | andi rd rs1 v =>
    exact (imm _ (immFunct7 v) _).imp (fun h => ⟨rd, _, rfl, h⟩) (fun h => .inl ⟨_, _, _, h⟩)
  | srli rd rs1 v => exact (imm _ _ _).imp (fun h => ⟨rd, _, rfl, h⟩) (fun h => .inl ⟨_, _, _, h⟩)
  | slli rd rs1 v f7 =>
    rcases imm 0b001 f7 (dashRow .opImm 0b001 f7 s (runOpImm .sll rd rs1 (shiftImm f7 v) s)) with h | h
    · rcases dash .opImm 0b001 f7 rd _ with h' | h'
      · exact .inl ⟨rd, _, rfl, h.trans h'⟩
      · exact .inr (.inl ⟨_, _, _, h.trans h'⟩)
    · exact .inr (.inl ⟨_, _, _, h⟩)
  | srai rd rs1 v =>
    rcases imm 0b101 0b0100000 (sraRow .opImm s (runOpImm .sra rd rs1 (shiftImm 0b0100000 v) s)) with h | h
    · rcases sra .opImm (runOpImm .sra rd rs1 (shiftImm 0b0100000 v) s) with h' | h'
      · exact .inl ⟨rd, _, rfl, h.trans h'⟩
      · exact .inr (.inl ⟨_, _, _, h.trans h'⟩)
    · exact .inr (.inl ⟨_, _, _, h⟩)
  | opUnsupported | opImmUnsupported => exact .inr (.inl ⟨_, _, _, rfl⟩)
  | load | store | branch | jal | jalr | system | lui | auipc => exact .inr (.inr (.inl ⟨_, rfl⟩))
  | unknown w => exact .inr (.inr (.inr ⟨_, rfl⟩))

end Sys2Proof.Machine
end

