-- ==== Sys2Proof/Laws/Memory.lean ====
section
/-! SUPPORT. What a changed mapping holds, that every operation on the instruction source keeps its canonical form and the width
of its addresses, and that both hold at reset and at launch. -/

namespace Sys2Proof.Machine

/-- Every pair of a changed mapping is an old pair or the new one. -/
theorem Memory.mem_write {m : Memory} {a : Nat} {v : Option Word} {c : Nat × Word} (h : c ∈ m.write a v) :
    c ∈ m ∨ c.1 = a := by
  induction m with
  | nil => cases v <;> simp_all [Memory.write, Memory.cell]
  | cons d m ih =>
    obtain ⟨b, w⟩ := d
    simp only [Memory.write] at h
    split at h
    · cases v <;> simp_all [Memory.cell]; grind
    · split at h
      · cases v <;> simp_all [Memory.cell]; grind
      · rcases List.mem_cons.mp h with h | h
        · exact .inl (h ▸ List.mem_cons_self)
        · exact (ih h).imp_left (List.mem_cons_of_mem _)

/-- Changing the mapping keeps the canonical form. -/
theorem Memory.write_keeps_wf {m : Memory} (h : Memory.wf m) (a : Nat) (v : Option Word) : Memory.wf (m.write a v) := by
  induction m with
  | nil => cases v <;> simp [Memory.write, Memory.cell]
  | cons d m ih =>
    obtain ⟨b, w⟩ := d
    have hb := (List.pairwise_cons.mp h).1
    have hp := (List.pairwise_cons.mp h).2
    simp only [Memory.write]
    split
    · cases v with
      | none => exact h
      | some x =>
        refine List.pairwise_cons.mpr ⟨fun c hc => ?_, h⟩
        rcases List.mem_cons.mp hc with rfl | hc
        · assumption
        · exact lt_trans ‹_› (hb c hc)
    · split
      · subst a
        cases v with
        | none => exact hp
        | some x => exact List.pairwise_cons.mpr ⟨hb, hp⟩
      · refine List.pairwise_cons.mpr ⟨fun c hc => ?_, ih hp⟩
        rcases Memory.mem_write hc with hc | hc
        · exact hb c hc
        · simp only; omega

/-- An address below every listed one holds no word. -/
theorem Memory.read_below {m : Memory} {a : Nat} (h : ∀ c ∈ m, a < c.1) : Memory.read m a = none := by
  induction m with
  | nil => rfl
  | cons d m ih =>
    have := h d List.mem_cons_self
    rw [Memory.read, if_neg (by omega)]
    exact ih (fun c hc => h c (List.mem_cons_of_mem _ hc))

/-- A changed mapping holds the new word, or none, at its address, and what it held at every other. -/
theorem Memory.read_write {m : Memory} (h : Memory.wf m) (a : Nat) (v : Option Word) (b : Nat) :
    Memory.read (m.write a v) b = if b = a then v else Memory.read m b := by
  induction m with
  | nil => cases v <;> simp [Memory.write, Memory.cell, Memory.read]
  | cons d m ih =>
    obtain ⟨c, w⟩ := d
    have hb := (List.pairwise_cons.mp h).1
    simp only [Memory.write]
    split
    · have hn : Memory.read ((c, w) :: m) a = none := Memory.read_below (fun e he => by
        rcases List.mem_cons.mp he with rfl | he
        · assumption
        · exact lt_trans ‹_› (hb e he))
      cases v with
      | none => by_cases hba : b = a <;> simp_all [Memory.cell]
      | some x => simp [Memory.cell, Memory.read]
    · split
      · subst a
        have hn : Memory.read m c = none := Memory.read_below hb
        cases v with
        | none => by_cases hbc : b = c <;> simp_all [Memory.cell, Memory.read]
        | some x => by_cases hbc : b = c <;> simp_all [Memory.cell, Memory.read]
      · simp only [Memory.read, ih (List.pairwise_cons.mp h).2]
        by_cases hbc : b = c
        · subst hbc; rw [if_pos rfl, if_neg (by omega), if_pos rfl]
        · simp [hbc]

/-- Placing a word keeps the canonical form and the width of the addresses. -/
theorem Memory.place_keeps_wf {m : Memory} (h : Memory.wf m) (c : Config) (a : Nat) (v : Option Word) :
    Memory.wf (m.place c a v) := by
  unfold Memory.place; split
  · exact Memory.write_keeps_wf h a v
  · exact h

theorem Memory.place_keeps_within {c : Config} {m : Memory} (h : Memory.within c.pcWidth m) (a : Nat) (v : Option Word) :
    Memory.within c.pcWidth (m.place c a v) := by
  unfold Memory.place; split
  · exact fun d hd => (Memory.mem_write hd).elim (h d) (fun e => e ▸ ‹a < _›)
  · exact h

/-- An address wider than the mapping's holds no word. -/
theorem Memory.read_wide {w : Nat} {m : Memory} (h : Memory.within w m) {a : Nat} (ha : ¬ a < 2 ^ w) :
    Memory.read m a = none := by
  induction m with
  | nil => rfl
  | cons d m ih =>
    have := h d List.mem_cons_self
    rw [Memory.read, if_neg (by omega)]
    exact ih (fun c hc => h c (List.mem_cons_of_mem _ hc))

/-- A mapping built by a loader is in canonical form, its addresses of pc's width. -/
theorem Memory.ofList_wf (c : Config) (pairs : List (Nat × Word)) :
    Memory.wf (Memory.ofList c pairs) ∧ Memory.within c.pcWidth (Memory.ofList c pairs) := by
  suffices ∀ m, Memory.wf m ∧ Memory.within c.pcWidth m →
      Memory.wf (pairs.foldl (fun m p => m.place c p.1 (some p.2)) m) ∧
      Memory.within c.pcWidth (pairs.foldl (fun m p => m.place c p.1 (some p.2)) m) from
    this [] ⟨List.Pairwise.nil, by simp⟩
  induction pairs with
  | nil => exact fun m h => h
  | cons p ps ih => exact fun m h => ih _ ⟨Memory.place_keeps_wf h.1 c _ _, Memory.place_keeps_within h.2 _ _⟩

/-- Placing a word keeps the canonical form. -/
theorem State.placeWord_keeps_wf {s : State} (h : Memory.wf s.imem) (a : Nat) (v : Option Word) :
    Memory.wf (s.placeWord a v).imem :=
  Memory.place_keeps_wf h s.cfg a v

/-- Reset's mapping is in canonical form. -/
theorem State.reset_wf : Memory.wf State.reset.imem := List.Pairwise.nil

/-- A launched state's mapping is in canonical form, its addresses of pc's width. -/
theorem State.launch_wf (c : Config) (m : List (Nat × Word)) (r : RegIdx → Int) (p : Int) :
    Memory.wf (State.launch c m r p).imem ∧ Memory.within c.pcWidth (State.launch c m r p).imem :=
  Memory.ofList_wf c m

end Sys2Proof.Machine
end

