-- ==== Sys2Proof/Laws/PerInstr.lean ====
section
/-! SUPPORT. A statement made per instruction: the word of a well-formed instruction has the opcode of its class. -/

namespace Sys2Proof.Laws.EncodedClass

/-- The opcode field of a well-formed instruction's word is recognised as the instruction's class, and as none for the row
UNKNOWN (30_encoding.md R75, R79, R80). -/
def Statement (i : Instr) : Prop :=
  i.wellFormed = true → recognise (opcodeOf (encode i)) = Machine.classOf i

/-- The opcode of a class-OP word. -/
theorem packOp_class (f3 : Funct3) (f7 : Funct7) (rd rs1 rs2 : RegIdx) :
    recognise (opcodeOf (packOp f3 f7 rd rs1 rs2)) = some .op := by
  rw [packOp, opcodeOf_pack, recognise_opcodeBits]

/-- The opcode of a class-OP-IMM word. -/
theorem packOpImm_class (f3 : Funct3) (rd rs1 : RegIdx) (v : Imm12) :
    recognise (opcodeOf (packOpImm f3 rd rs1 v)) = some .opImm := by
  rw [packOpImm, opcodeOf_pack, recognise_opcodeBits]

/-- The opcode of an unhandled class's word. -/
theorem packClass_class (c : OpcodeClass) (rest : BitVec 25) :
    recognise (opcodeOf (packClass c rest)) = some c := by
  rw [opcodeOf_packClass, recognise_opcodeBits]

theorem add (rd rs1 rs2 : RegIdx) : Statement (.add rd rs1 rs2) := fun _ => packOp_class ..
theorem sub (rd rs1 rs2 : RegIdx) : Statement (.sub rd rs1 rs2) := fun _ => packOp_class ..
theorem sll (rd rs1 rs2 : RegIdx) (f7 : Funct7) : Statement (.sll rd rs1 rs2 f7) := fun _ => packOp_class ..
theorem slt (rd rs1 rs2 : RegIdx) (f7 : Funct7) : Statement (.slt rd rs1 rs2 f7) := fun _ => packOp_class ..
theorem xor (rd rs1 rs2 : RegIdx) (f7 : Funct7) : Statement (.xor rd rs1 rs2 f7) := fun _ => packOp_class ..
theorem srl (rd rs1 rs2 : RegIdx) : Statement (.srl rd rs1 rs2) := fun _ => packOp_class ..
theorem sra (rd rs1 rs2 : RegIdx) : Statement (.sra rd rs1 rs2) := fun _ => packOp_class ..
theorem or (rd rs1 rs2 : RegIdx) (f7 : Funct7) : Statement (.or rd rs1 rs2 f7) := fun _ => packOp_class ..
theorem and (rd rs1 rs2 : RegIdx) (f7 : Funct7) : Statement (.and rd rs1 rs2 f7) := fun _ => packOp_class ..
theorem addi (rd rs1 : RegIdx) (v : Imm12) : Statement (.addi rd rs1 v) := fun _ => packOpImm_class ..
theorem slli (rd rs1 : RegIdx) (v : BitVec 5) (f7 : Funct7) : Statement (.slli rd rs1 v f7) := fun _ => packOpImm_class ..
theorem slti (rd rs1 : RegIdx) (v : Imm12) : Statement (.slti rd rs1 v) := fun _ => packOpImm_class ..
theorem sltiu (rd rs1 : RegIdx) (v : Imm12) : Statement (.sltiu rd rs1 v) := fun _ => packOpImm_class ..
theorem xori (rd rs1 : RegIdx) (v : Imm12) : Statement (.xori rd rs1 v) := fun _ => packOpImm_class ..
theorem srli (rd rs1 : RegIdx) (v : BitVec 5) : Statement (.srli rd rs1 v) := fun _ => packOpImm_class ..
theorem srai (rd rs1 : RegIdx) (v : BitVec 5) : Statement (.srai rd rs1 v) := fun _ => packOpImm_class ..
theorem ori (rd rs1 : RegIdx) (v : Imm12) : Statement (.ori rd rs1 v) := fun _ => packOpImm_class ..
theorem andi (rd rs1 : RegIdx) (v : Imm12) : Statement (.andi rd rs1 v) := fun _ => packOpImm_class ..
theorem load (rest : BitVec 25) : Statement (.load rest) := fun _ => packClass_class ..
theorem store (rest : BitVec 25) : Statement (.store rest) := fun _ => packClass_class ..
theorem branch (rest : BitVec 25) : Statement (.branch rest) := fun _ => packClass_class ..
theorem jal (rest : BitVec 25) : Statement (.jal rest) := fun _ => packClass_class ..
theorem jalr (rest : BitVec 25) : Statement (.jalr rest) := fun _ => packClass_class ..
theorem system (rest : BitVec 25) : Statement (.system rest) := fun _ => packClass_class ..
theorem lui (rest : BitVec 25) : Statement (.lui rest) := fun _ => packClass_class ..
theorem auipc (rest : BitVec 25) : Statement (.auipc rest) := fun _ => packClass_class ..
theorem opUnsupported (f3 : Funct3) (f7 : Funct7) (rd rs1 rs2 : RegIdx) :
    Statement (.opUnsupported f3 f7 rd rs1 rs2) := fun _ => packOp_class ..
theorem opImmUnsupported (f3 : Funct3) (rd rs1 : RegIdx) (v : Imm12) :
    Statement (.opImmUnsupported f3 rd rs1 v) := fun _ => packOpImm_class ..
theorem unknown (w : Word) : Statement (.unknown w) := fun h => of_decide_eq_true h

end Sys2Proof.Laws.EncodedClass
end

