-- ==== Sys2Proof/Laws/Run.lean ====
section
/-! SUPPORT. One step of a run, by what the step answers: the model's run with its report, and the host's run of the machine. -/

namespace Sys2Proof.Machine

/-- A run that starts with an Ok step is the run from its next state, one step longer. -/
theorem runUpTo_next {s t : State} (h : step s = .next t) (n : Nat) :
    runUpTo (n + 1) s = ⟨(runUpTo n t).okSteps + 1, (runUpTo n t).final, (runUpTo n t).ended⟩ := by
  simp [runUpTo, h]

/-- A run that starts with an error ends there. -/
theorem runUpTo_fault {s : State} {f : Fault} (h : step s = .fault f) (n : Nat) :
    runUpTo (n + 1) s = ⟨0, s, .fault f⟩ := by
  simp [runUpTo, h]

/-- A run that starts with a placeholder outcome ends there. -/
theorem runUpTo_refused {s : State} {r : Refusal} (h : step s = .refused r) (n : Nat) :
    runUpTo (n + 1) s = ⟨0, s, .refused r⟩ := by
  simp [runUpTo, h]

/-- The host's run of any machine takes an Ok step first. -/
theorem hostRun_next (M : Host.Core) {s t : M.State} (h : M.step s = .next t) (k : Nat) : M.run (k + 1) s = M.run k t := by
  simp [Host.Core.run, h]

/-- The same of this machine. -/
theorem coreRun_next {s t : State} (h : step s = .next t) (k : Nat) : core.run (k + 1) s = core.run k t :=
  hostRun_next core h k

end Sys2Proof.Machine
end

