-- ==== Sys2Proof/Tests/Slice0.lean ====
section
/-! SUPPORT. Tests of the model and witnesses of the statements' hypotheses. Every expected value is the spec's own: tables T1 to
T9, the scenarios S1 to S7 and the vectors V1 to V9 of 95_test_vectors.md, and the worked examples beside the rules. -/

namespace Sys2Proof.Tests

open Sys2Proof Sys2Proof.Machine

/-! ### What a test looks at -/

/-- The decided configuration, and the same with one parameter moved. -/
def hw : Config := Config.hardware
def hwSra : Config := { hw with sraImplemented := true }
def hwStrict : Config := { hw with strictFunct7 := true }
def hwNoImm : Config := { hw with opimmImplemented := false }
def hwWide : Config := { hw with pcWidth := 64 }

/-- A start: pc = 0x100, the registers listed, all others 0, an empty instruction source. -/
def start (c : Config) (seeds : List (RegIdx × Word)) : State :=
  seeds.foldl (fun s p => s.writeReg p.1 p.2) { State.reset with pc := 0x100, cfg := c }

/-- One step at a start with the word at pc. -/
def stepOn (c : Config) (seeds : List (RegIdx × Word)) (w : Nat) : Result :=
  step ((start c seeds).withFetchWord 32 w)

/-- What an Ok step leaves in a register and in pc. -/
def left (i : RegIdx) : Result → Option (Word × Nat)
  | .next t => some (t.readReg i, t.pc)
  | _ => none

/-- How a step stops. -/
def faultOf : Result → Option Fault
  | .fault f => some f
  | _ => none

def refusalOf : Result → Option Refusal
  | .refused r => some r
  | _ => none

/-- The opcode, funct3 and funct7 of an UnsupportedOperation. -/
def unsupported (o : Opcode) (f3 : Funct3) (f7 : Funct7) : Option Fault := some (.unsupportedOperation o f3 f7)

/-! ### Well-formedness refuses -/

/-- An ADD word is not an OP.unsupported word. -/
theorem test_wf_refuses_op_cell_with_a_row : (Instr.opUnsupported 0b000 0b0000000 1 2 3).wellFormed = false := by decide
theorem test_wf_refuses_op_dash_row : (Instr.opUnsupported 0b100 0b0100000 1 2 3).wellFormed = false := by decide
theorem test_wf_accepts_empty_op_cell : (Instr.opUnsupported 0b011 0b0000000 1 2 3).wellFormed = true := by decide
/-- An ADDI word, and an SRAI word, are not OP-IMM.unsupported words. -/
theorem test_wf_refuses_op_imm_cell_with_a_row : (Instr.opImmUnsupported 0b000 1 2 0x024).wellFormed = false := by decide
theorem test_wf_refuses_srai_as_unsupported : (Instr.opImmUnsupported 0b101 1 2 0x404).wellFormed = false := by decide
/-- A word of class OP is not an UNKNOWN word. -/
theorem test_wf_refuses_known_opcode : (Instr.unknown 0x00000033).wellFormed = false := by decide
theorem test_wf_accepts_unknown_opcode : (Instr.unknown 0x0000007F).wellFormed = true := by decide

/-! ### Decoding: one word of every constructor, from the spec's encodings (41, 42, 43, table T1) -/

theorem test_decode_add :
    decode 0x00728133 = .add 2 5 7 ∧ encode (.add 2 5 7) = 0x00728133 := by decide
theorem test_decode_sub :
    decode 0x402081B3 = .sub 3 1 2 ∧ encode (.sub 3 1 2) = 0x402081B3 := by decide
theorem test_decode_sll :
    decode 0x00209233 = .sll 4 1 2 0 ∧ encode (.sll 4 1 2 0) = 0x00209233 := by decide
theorem test_decode_slt :
    decode 0x0053A0B3 = .slt 1 7 5 0 ∧ encode (.slt 1 7 5 0) = 0x0053A0B3 := by decide
theorem test_decode_xor :
    decode 0x0020C333 = .xor 6 1 2 0 ∧ encode (.xor 6 1 2 0) = 0x0020C333 := by decide
theorem test_decode_srl :
    decode 0x0020D433 = .srl 8 1 2 ∧ encode (.srl 8 1 2) = 0x0020D433 := by decide
theorem test_decode_sra :
    decode 0x4072D133 = .sra 2 5 7 ∧ encode (.sra 2 5 7) = 0x4072D133 := by decide
theorem test_decode_or :
    decode 0x0020E533 = .or 10 1 2 0 ∧ encode (.or 10 1 2 0) = 0x0020E533 := by decide
theorem test_decode_and :
    decode 0x0020F5B3 = .and 11 1 2 0 ∧ encode (.and 11 1 2 0) = 0x0020F5B3 := by decide
theorem test_decode_addi :
    decode 0xFFF08113 = .addi 2 1 0xFFF ∧ encode (.addi 2 1 0xFFF) = 0xFFF08113 := by decide
theorem test_decode_slli :
    decode 0x40409193 = .slli 3 1 4 0b0100000 ∧ encode (.slli 3 1 4 0b0100000) = 0x40409193 := by decide
theorem test_decode_slti :
    decode 0xFFF0A213 = .slti 4 1 0xFFF ∧ encode (.slti 4 1 0xFFF) = 0xFFF0A213 := by decide
theorem test_decode_sltiu :
    decode 0xFFF0B293 = .sltiu 5 1 0xFFF ∧ encode (.sltiu 5 1 0xFFF) = 0xFFF0B293 := by decide
theorem test_decode_xori :
    decode 0xFFF0C313 = .xori 6 1 0xFFF ∧ encode (.xori 6 1 0xFFF) = 0xFFF0C313 := by decide
theorem test_decode_srli :
    decode 0x0040D393 = .srli 7 1 4 ∧ encode (.srli 7 1 4) = 0x0040D393 := by decide
theorem test_decode_srai :
    decode 0x4040D413 = .srai 8 1 4 ∧ encode (.srai 8 1 4) = 0x4040D413 := by decide
theorem test_decode_ori :
    decode 0x8000E493 = .ori 9 1 0x800 ∧ encode (.ori 9 1 0x800) = 0x8000E493 := by decide
theorem test_decode_andi :
    decode 0x0FF0F513 = .andi 10 1 0x0FF ∧ encode (.andi 10 1 0x0FF) = 0x0FF0F513 := by decide
theorem test_decode_load :
    decode 0x00012083 = .load 0x000241 ∧ encode (.load 0x000241) = 0x00012083 := by decide
theorem test_decode_store :
    decode 0x00112023 = .store 0x002240 ∧ encode (.store 0x002240) = 0x00112023 := by decide
theorem test_decode_branch :
    decode 0xFE208CE3 = .branch 0x1FC4119 ∧ encode (.branch 0x1FC4119) = 0xFE208CE3 := by decide
theorem test_decode_jal :
    decode 0x000000EF = .jal 1 ∧ encode (.jal 1) = 0x000000EF := by decide
theorem test_decode_jalr :
    decode 0x00008067 = .jalr 0x000100 ∧ encode (.jalr 0x000100) = 0x00008067 := by decide
theorem test_decode_system :
    decode 0x00100073 = .system 0x002000 ∧ encode (.system 0x002000) = 0x00100073 := by decide
theorem test_decode_lui :
    decode 0x123450B7 = .lui 0x2468A1 ∧ encode (.lui 0x2468A1) = 0x123450B7 := by decide
theorem test_decode_auipc :
    decode 0x00000097 = .auipc 1 ∧ encode (.auipc 1) = 0x00000097 := by decide
theorem test_decode_op_unsupported :
    decode 0x0220D633 = .opUnsupported 0b101 0b0000001 12 1 2 ∧
    encode (.opUnsupported 0b101 0b0000001 12 1 2) = 0x0220D633 := by decide
theorem test_decode_op_imm_unsupported :
    decode 0x0240D413 = .opImmUnsupported 0b101 8 1 0x024 ∧ encode (.opImmUnsupported 0b101 8 1 0x024) = 0x0240D413 := by decide
theorem test_decode_unknown :
    decode 0x0FF0000F = .unknown 0x0FF0000F ∧ encode (.unknown 0x0FF0000F) = 0x0FF0000F := by decide

/-- Written out field by field from R79 and R80: funct7, rs2, rs1, funct3, rd, opcode. -/
theorem test_decode_add_bit_by_bit : decode 0b0000000_00111_00101_000_00010_0110011 = .add 2 5 7 := by decide
theorem test_decode_srai_bit_by_bit : decode 0b0100000_00100_00001_101_01000_0010011 = .srai 8 1 4 := by decide
theorem test_decode_beq_bit_by_bit : decode 0b1111111_00010_00001_000_11001_1100011 = .branch 0x1FC4119 := by decide

/-- Table T1: the fields and the immediate of 0xFE208CE3, and the sign of 0x80008093. -/
theorem test_fields_of_branch_word : fieldsOf 0xFE208CE3 =
    { opcode := 0b1100011, rd := 25, funct3 := 0, rs1 := 1, rs2 := 2, funct7 := 0b1111111 } := by decide
theorem test_fields_of_alternating_word : fieldsOf 0xAAAAAAAA =
    { opcode := 0b0101010, rd := 21, funct3 := 0b010, rs1 := 21, rs2 := 10, funct7 := 0b1010101 } := by decide
theorem test_immediate_signs : sext12 (imm12Of 0x80008093) = 0xFFFFF800 ∧ sext12 (imm12Of 0x7FF08093) = 0x000007FF := by decide

/-- R70: a 33rd bit makes no instruction. -/
theorem test_decode_table_word : decodeTableWord 32 0x00728133 = some (.add 2 5 7) ∧
    decodeTableWord 32 (2 ^ 32) = none ∧ decodeTableWord 40 0x33 = none := by decide

/-! ### The ALU (table T3) -/

theorem test_alu_sub_borrows : alu .sub 6 10 = 0xFFFFFFFC ∧ alu .sub 0 0x80000000 = 0x80000000 := by decide
theorem test_alu_shift_amounts : alu .sll 0x12345678 0xFFFFFFE8 = 0x34567800 ∧ alu .sll 1 0x20 = 1 ∧
    alu .srl 0xF0000000 0xFFFFFFFC = 0xF ∧
    alu .sra 0xF0000000 0xFFFFFFFC = 0xFFFFFFFF ∧ alu .sra 0x80000000 0x20 = 0x80000000 := by decide
theorem test_alu_comparisons : alu .slt 0x80000000 0x7FFFFFFF = 1 ∧ alu .sltu 0x80000000 0x7FFFFFFF = 0 ∧
    alu .slt 5 5 = 0 ∧ alu .sltu 5 0xFFFFF800 = 1 := by decide

/-! ### Single steps, class OP (tables T2 and T4, vectors V1, V5, V6) -/

theorem test_add_s1 :
    left 2 (stepOn hw [(5, 0xA), (7, 0x6)] 0x00728133) = some (0x10, 0x104) := by decide
theorem test_add_wraps_and_reads_before_the_write :
    left 5 (stepOn hw [(5, 0x80000000)] 0x005282B3) = some (0, 0x104) := by decide
theorem test_register_zero_discards_writes :
    left 0 (stepOn hw [(1, 0x3), (2, 0x4)] 0x00208033) = some (0, 0x104) := by decide
theorem test_sub_negative :
    left 3 (stepOn hw [(1, 0x6), (2, 0xA)] 0x402081B3) = some (0xFFFFFFFC, 0x104) := by decide
theorem test_sub_from_x0 :
    left 1 (stepOn hw [(1, 0x5)] 0x401000B3) = some (0xFFFFFFFB, 0x104) := by decide
theorem test_sll_ignores_funct7 :
    left 4 (stepOn hw [(1, 0x1), (2, 0x4)] 0x02209233) = some (0x10, 0x104) := by decide
theorem test_slt_compares_contents :
    left 1 (stepOn hw [(5, 0xA), (7, 0x6)] 0x0053A0B3) = some (1, 0x104) := by decide
theorem test_slt_is_signed :
    left 1 (stepOn hw [(5, 0x0), (7, 0xFFFFFFFF)] 0x0053A0B3) = some (1, 0x104) := by decide
theorem test_xor :
    left 6 (stepOn hw [(1, 0xFF00FF00), (2, 0xFF00FF0)] 0x0020C333) = some (0xF0F0F0F0, 0x104) := by decide
theorem test_srl_by_28 :
    left 8 (stepOn hw [(1, 0xF0000000), (2, 0xFFFFFFFC)] 0x0020D433) = some (0xF, 0x104) := by decide
theorem test_srl_zero_fill :
    left 8 (stepOn hw [(1, 0x80000000), (2, 0x1F)] 0x0020D433) = some (1, 0x104) := by decide
theorem test_sra_switched_on_v1 :
    left 2 (stepOn hwSra [(5, 0x80000000), (7, 0x4)] 0x4072D133) = some (0xF8000000, 0x104) := by decide
theorem test_or :
    left 10 (stepOn hw [(1, 0xFF00FF00), (2, 0xFF00FF0)] 0x0020E533) = some (0xFFF0FFF0, 0x104) := by decide
theorem test_and :
    left 11 (stepOn hw [(1, 0xFF00FF00), (2, 0xFF00FF0)] 0x0020F5B3) = some (0x0F000F00, 0x104) := by decide
theorem test_sra_unsupported_s2 : faultOf (stepOn hw [(5, 0x80000000), (7, 4), (2, 0x12345678)] 0x4072D133) =
    unsupported 0b0110011 0b101 0b0100000 := by decide
theorem test_sltu_cell_unsupported : faultOf (stepOn hw [(1, 1), (2, 2)] 0x0020B633) =
    unsupported 0b0110011 0b011 0b0000000 := by decide
theorem test_mul_cell_unsupported : faultOf (stepOn hw [(1, 3), (2, 4)] 0x02208633) =
    unsupported 0b0110011 0b000 0b0000001 := by decide
theorem test_strict_xor_v5 : faultOf (stepOn hwStrict [(1, 0xFF00FF00), (2, 0x0FF00FF0)] 0x4020C333) =
    unsupported 0b0110011 0b100 0b0100000 := by decide
theorem test_strict_sll_v6 : faultOf (stepOn hwStrict [(1, 1), (2, 4)] 0x02209233) =
    unsupported 0b0110011 0b001 0b0000001 := by decide

/-! ### Single steps, class OP-IMM (table T5, vectors V3, V4, V7) -/

theorem test_addi_wraps :
    left 2 (stepOn hw [(1, 0x5)] 0xFFF08113) = some (4, 0x104) := by decide
theorem test_addi_most_negative_immediate :
    left 1 (stepOn hw [] 0x80008093) = some (0xFFFFF800, 0x104) := by decide
theorem test_slli_ignores_upper_bits :
    left 3 (stepOn hw [(1, 0xFF00FF0)] 0x40409193) = some (0xFF00FF00, 0x104) := by decide
theorem test_slti_signed :
    left 4 (stepOn hw [(1, 0x80000000)] 0x00A0A213) = some (1, 0x104) := by decide
theorem test_slti_minus_two :
    left 4 (stepOn hw [(1, 0xFFFFFFFE)] 0xFFF0A213) = some (1, 0x104) := by decide
theorem test_sltiu_extends_then_compares :
    left 5 (stepOn hw [(1, 0x5)] 0xFFF0B293) = some (1, 0x104) := by decide
theorem test_sltiu_equal :
    left 5 (stepOn hw [(1, 0xFFFFFFFF)] 0xFFF0B293) = some (0, 0x104) := by decide
theorem test_xori_complements :
    left 6 (stepOn hw [(1, 0x12345678)] 0xFFF0C313) = some (0xEDCBA987, 0x104) := by decide
theorem test_srli :
    left 7 (stepOn hw [(1, 0xFFFFFFF0)] 0x0040D393) = some (0x0FFFFFFF, 0x104) := by decide
theorem test_srli_by_31 :
    left 7 (stepOn hw [(1, 0x80000000)] 0x01F0D393) = some (1, 0x104) := by decide
theorem test_srai_switched_on_v3 :
    left 8 (stepOn hwSra [(1, 0xFFFFFFF0)] 0x4040D413) = some (0xFFFFFFFF, 0x104) := by decide
theorem test_ori_negative :
    left 9 (stepOn hw [(1, 0xF)] 0x8000E493) = some (0xFFFFF80F, 0x104) := by decide
theorem test_andi_negative :
    left 10 (stepOn hw [(1, 0x12345678)] 0xFF00F513) = some (0x12345670, 0x104) := by decide
theorem test_srai_unsupported : faultOf (stepOn hw [(1, 0xFFFFFFF0)] 0x4040D413) =
    unsupported 0b0010011 0b101 0b0100000 := by decide
theorem test_op_imm_cell_unsupported : faultOf (stepOn hw [(1, 0xFFFFFFF0)] 0x0240D413) =
    unsupported 0b0010011 0b101 0b0000001 := by decide
theorem test_op_imm_switched_off_v4 : faultOf (stepOn hwNoImm [] 0x00500093) =
    unsupported 0b0010011 0b000 0b0000000 := by decide
theorem test_strict_slli_v7 : faultOf (stepOn hwStrict [(1, 0x0FF00FF0)] 0x40409193) =
    unsupported 0b0010011 0b001 0b0100000 := by decide

/-! ### Single steps, the other classes and UNKNOWN (tables T6 and T7) -/

theorem test_load_not_implemented :
    refusalOf (stepOn hw [(1, 7), (2, 0x40)] 0x00012083) = some (.notImplemented .load) := by decide
theorem test_store_not_implemented :
    refusalOf (stepOn hw [(1, 7), (2, 0x40)] 0x00112023) = some (.notImplemented .store) := by decide
theorem test_branch_not_implemented :
    refusalOf (stepOn hw [(1, 7), (2, 0x40)] 0xFE208CE3) = some (.notImplemented .branch) := by decide
theorem test_jal_not_implemented :
    refusalOf (stepOn hw [(1, 7), (2, 0x40)] 0x000000EF) = some (.notImplemented .jal) := by decide
theorem test_jalr_not_implemented :
    refusalOf (stepOn hw [(1, 7), (2, 0x40)] 0x00008067) = some (.notImplemented .jalr) := by decide
theorem test_system_not_implemented :
    refusalOf (stepOn hw [(1, 7), (2, 0x40)] 0x00000073) = some (.notImplemented .system) := by decide
theorem test_lui_not_implemented :
    refusalOf (stepOn hw [(1, 7), (2, 0x40)] 0x123450B7) = some (.notImplemented .lui) := by decide
theorem test_auipc_not_implemented :
    refusalOf (stepOn hw [(1, 7), (2, 0x40)] 0x00000097) = some (.notImplemented .auipc) := by decide
theorem test_fence_is_unknown : faultOf (stepOn hw [] 0x0FF0000F) = some (.unknownOpcode 0b0001111) := by decide
theorem test_all_zero_word_is_unknown : faultOf (stepOn hw [] 0x00000000) = some (.unknownOpcode 0b0000000) := by decide

/-! ### The step and reset (table T9) -/

theorem test_empty_source : faultOf (step (start hw [])) = some (.fetchUnavailable 0x100) := by decide
theorem test_reset_has_no_program : faultOf (step State.reset) = some (.fetchUnavailable 0) := by decide
theorem test_misaligned_pc : left 1 (step (State.withFetchWord { State.reset with pc := 0x102 } 32 0x00500093)) =
    some (5, 0x106) := by decide
theorem test_pc_wraps : left 1 (step (State.withFetchWord { State.reset.writeReg 1 0xFFFFFFFF with pc := 0xFFFFFFFC } 32
    0x00108093)) = some (0, 0) := by decide
/-- The remark on D8: a counter wider than 32 bits goes on to 2^32 where the decided one wraps. -/
theorem test_wide_pc_goes_on : left 1 (step (State.withFetchWord
    { State.reset.writeReg 1 0xFFFFFFFF with pc := 0xFFFFFFFC, cfg := hwWide } 32 0x00108093)) = some (0, 2 ^ 32) := by decide
theorem test_x31_is_not_touched : left 31 (stepOn hw [(31, 0xDEADBEEF)] 0x00500093) = some (0xDEADBEEF, 0x104) := by decide
/-- A run of one error: the state stays and the reason is reported (R134, R219). -/
theorem test_run_ends_at_the_error : (runUpTo 2 ((start hw []).withFetchWord 32 0x7F)).ended = .fault (.unknownOpcode 0x7F) ∧
    (runUpTo 2 ((start hw []).withFetchWord 32 0x7F)).okSteps = 0 := by decide

/-! ### The host's accesses (S5) and the instruction source -/

/-- What the host reads back in register `j` after writing `v` to register `k`. -/
def wrote (k v j : Int) : Option Word :=
  match State.reset.hostWrite k v with
  | .ok t => (match t.hostRead j with | .ok y => some y | .error _ => none)
  | .error _ => none

theorem test_host_write_zero : wrote 0 0xDEADBEEF 0 = some 0 := by decide
theorem test_host_write_masks : wrote 7 0x100000010 7 = some 0x10 ∧ wrote 7 (-1) 7 = some 0xFFFFFFFF := by decide
theorem test_host_write_one_slot : wrote 31 0xFFFFFFFF 31 = some 0xFFFFFFFF ∧ wrote 3 9 4 = some 0 := by decide
theorem test_host_index_range : wrote 32 1 0 = none ∧ wrote 1 1 32 = none ∧ wrote 1 1 (-1) = none := by decide
theorem test_memory_is_canonical : Memory.write (Memory.write (Memory.write [] 8 (some 1)) 4 (some 2)) 8 none = [(4, 2)] ∧
    Memory.write [(4, 2), (8, 1)] 4 (some 3) = [(4, 3), (8, 1)] := by decide
theorem test_memory_form_refuses : ¬ Memory.wf [(8, 1), (4, 2)] ∧ ¬ Memory.wf [(4, 2), (4, 2)] ∧
    ¬ Memory.within 32 [(2 ^ 32, 1)] := by decide

/-! ### Witnesses: states and operands that meet the statements' hypotheses, clause by clause -/

/-- ResetLeavesZerosAndDecidedSwitches has no hypothesis; its clauses at the last register and the first address. -/
theorem witness_reset_leaves_zeros : State.reset.readReg 31 = 0 ∧ State.reset.ifetch 0 = none := by decide
/-- LaunchSeedsRegistersAndPc: a register other than 0, values that need the reduction. -/
theorem witness_launch_nonzero_register :
    (31 : RegIdx) ≠ 0 ∧ (State.launch hw [(0x100, 0x13)] (fun _ => -1) (2 ^ 32 + 256)).readReg 31 = 0xFFFFFFFF ∧
    (State.launch hw [(0x100, 0x13)] (fun _ => -1) (2 ^ 32 + 256)).readReg 0 = 0 ∧
    (State.launch hw [(0x100, 0x13)] (fun _ => -1) (2 ^ 32 + 256)).pc = 0x100 := by decide
/-- LaunchSeedsRegistersAndPc: an address with two pairs, one with none, the widest address, and a number that is none. -/
theorem witness_launch_source :
    (0x100 : Nat) < 2 ^ hw.pcWidth ∧ (0xFFFFFFFF : Nat) < 2 ^ hw.pcWidth ∧ ¬ ((2 ^ 32 : Nat) < 2 ^ hw.pcWidth) ∧
    lastWordAt [(0x100, 1), (0xFFFFFFFF, 2), (0x100, 3)] 0x100 = some 3 ∧
    (State.launch hw [(0x100, 1), (0xFFFFFFFF, 2), (0x100, 3)] (fun _ => 0) 0).ifetch 0x100 = some 3 ∧
    (State.launch hw [(0x100, 1), (0xFFFFFFFF, 2), (0x100, 3)] (fun _ => 0) 0).ifetch 0xFFFFFFFF = some 2 ∧
    (State.launch hw [(0x100, 1), (0xFFFFFFFF, 2), (0x100, 3)] (fun _ => 0) 0).ifetch 0x104 = none ∧
    (State.launch hw [(2 ^ 32, 1)] (fun _ => 0) 0).ifetch (2 ^ 32) = none := by decide
/-- RegisterReadAfterWrite: i not 0, i = 0, j not i. -/
theorem witness_register_write_clauses :
    (1 : RegIdx) ≠ 0 ∧ (State.reset.writeReg 1 7).readReg 1 = 7 ∧ (2 : RegIdx) ≠ 1 ∧
    (State.reset.writeReg 1 7).readReg 2 = 0 ∧ (State.reset.writeReg 0 7) = State.reset := by decide
/-- HostAccessChecksTheIndex: −1 and 32 outside, 0 and 31 inside, another index. -/
theorem witness_host_index_clauses :
    ¬ ((0 : Int) ≤ -1 ∧ (-1 : Int) ≤ 31) ∧ ¬ ((0 : Int) ≤ 32 ∧ (32 : Int) ≤ 31) ∧ ((0 : Int) ≤ 0 ∧ (0 : Int) ≤ 31) ∧
    ((0 : Int) ≤ 31 ∧ (31 : Int) ≤ 31) ∧ (30 : Int) ≠ 31 := by decide
/-- PlacedWordIsFetched and PlacedInstructionRunsNext: canonical sources, the last address and the first number that is none,
another address. -/
theorem witness_placed_word_wf :
    Memory.wf State.reset.imem ∧ Memory.wf [(0, 1), (0xFFFFFFFF, 2)] ∧
    (State.reset.placeWord 0x104 (some 0x13)).ifetch 0x104 = some 0x13 ∧ (0x108 : Nat) ≠ 0x104 ∧
    (0xFFFFFFFF : Nat) < 2 ^ State.reset.cfg.pcWidth ∧ ¬ ((2 ^ 32 : Nat) < 2 ^ State.reset.cfg.pcWidth) ∧
    State.reset.pc < 2 ^ State.reset.cfg.pcWidth := by decide
/-- DecodeOfEncodeIsTheInstruction: a plain row and the three catch-alls. -/
theorem witness_well_formed_instruction :
    (Instr.add 31 31 31).wellFormed = true ∧ (Instr.opUnsupported 0b101 0b1111111 0 0 0).wellFormed = true ∧
    (Instr.opImmUnsupported 0b101 0 0 0x3E0).wellFormed = true ∧ (Instr.unknown 0xFFFFFFFF).wellFormed = true := by decide
/-- DecoderAnswersOneOfTwo and UnknownOpcodesAreReported: an opcode outside the ten, OP-IMM, and another inside. -/
theorem witness_decoder_clauses :
    opcodeOf 0x0000007F ∉ tenOpcodes ∧ opcodeOf 0x00000013 ∈ tenOpcodes ∧ opcodeOf 0x00000017 ∈ tenOpcodes := by decide
/-- OpcodeTableFirstRowIsTheDecodedRow: the decided masks. -/
theorem witness_table_row_masks :
    hw.strictFunct7 = false ∧ (tableRow hw 0x4020C333).map (fun r => r.mnemonic) = some "XOR" := by decide
/-- OpcodeTableOutcomeIsTheOutcome: OPIMM_IMPLEMENTED under three configurations. -/
theorem witness_table_outcome :
    (start hw []).cfg.opimmImplemented = true ∧ (start hwStrict []).cfg.opimmImplemented = true ∧
    tableOutcome hwStrict 0x4020C333 = some .unsupportedOperation ∧ tableOutcome hwSra 0x4072D133 = some .ok := by decide
/-- ExecutingCellCounts: both readings of the dash. -/
theorem witness_counts :
    (start hw []).cfg.opimmImplemented = true ∧ (start hw []).cfg.sraImplemented = false ∧
    (start hwStrict []).cfg.opimmImplemented = true ∧ (start hwStrict []).cfg.sraImplemented = false := by decide
/-- AluBitwiseOperations: the first and the last bit. -/
theorem witness_bit_index :
    (0 : Nat) < 32 ∧ (31 : Nat) < 32 ∧ (alu .xor 0x80000001 1).getLsbD 31 = true ∧
    (alu .xor 0x80000001 1).getLsbD 0 = false := by decide
/-- SLL, SLT, XOR, OR, AND, SLLI: funct7 not consulted, and funct7 zero under the strict reading. -/
theorem witness_dash_clauses :
    (start hw []).cfg.opimmImplemented = true ∧ (start hwStrict []).cfg.opimmImplemented = true ∧
    ((start hw []).cfg.strictFunct7 = false ∨ (0b1111111 : Funct7) = 0) ∧
    ((start hwStrict []).cfg.strictFunct7 = false ∨ (0 : Funct7) = 0) := by decide
/-- StrictDashRowsRaiseUnsupported. -/
theorem witness_strict_refuses : (start hwStrict []).cfg.strictFunct7 = true ∧ (0b0000001 : Funct7) ≠ 0 := by decide
/-- SraFollowsItsSwitch and SraiFollowsItsSwitch: both values. -/
theorem witness_sra_switch :
    (start hwSra []).cfg.sraImplemented = true ∧ (start hwSra []).cfg.opimmImplemented = true ∧
    (start hw []).cfg.sraImplemented = false := by decide
/-- The OP-IMM completion statements (with dash_clauses for SLLI), and DisabledOpImmClassRaisesUnsupported. -/
theorem witness_op_imm_switch :
    (start hw []).cfg.opimmImplemented = true ∧ (start hwNoImm []).cfg.opimmImplemented = false ∧
    opcodeOf 0x00500093 = 0b0010011 := by decide
/-- EmptyOpCellsRaiseUnsupported: funct3 011, 000 and 101. -/
theorem witness_empty_op_cells :
    opcodeOf 0x0020B633 = 0b0110011 ∧ funct3Of 0x0020B633 = 0b011 ∧ opcodeOf 0x02208633 = 0b0110011 ∧
    funct3Of 0x02208633 = 0b000 ∧ funct7Of 0x02208633 ≠ 0b0000000 ∧ funct7Of 0x02208633 ≠ 0b0100000 ∧
    opcodeOf 0x0220D633 = 0b0110011 ∧ funct3Of 0x0220D633 = 0b101 ∧ funct7Of 0x0220D633 ≠ 0b0000000 ∧
    funct7Of 0x0220D633 ≠ 0b0100000 := by decide
/-- EmptyOpImmCellsRaiseUnsupported. -/
theorem witness_empty_op_imm_cell :
    opcodeOf 0x0240D413 = 0b0010011 ∧ funct3Of 0x0240D413 = 0b101 ∧ funct7Of 0x0240D413 ≠ 0b0000000 ∧
    funct7Of 0x0240D413 ≠ 0b0100000 := by decide
/-- HasEncoding: for each row of the table a word its mask selects, here with operand bits set and, for a dash row, with a
funct7 of ones under the plain mask and of zeros under the strict one. -/
theorem witness_encodings_op :
    (0x01FF8FB3 : Word) &&& 0xFE00707F = 0x00000033 ∧
    (0x41FF8FB3 : Word) &&& 0xFE00707F = 0x40000033 ∧
    (0xFFFF9FB3 : Word) &&& 0x0000707F = 0x00001033 ∧
    (0x01FF9FB3 : Word) &&& 0xFE00707F = 0x00001033 ∧
    (0xFFFFAFB3 : Word) &&& 0x0000707F = 0x00002033 ∧
    (0x01FFAFB3 : Word) &&& 0xFE00707F = 0x00002033 ∧
    (0xFFFFCFB3 : Word) &&& 0x0000707F = 0x00004033 ∧
    (0x01FFCFB3 : Word) &&& 0xFE00707F = 0x00004033 ∧
    (0xFFFFEFB3 : Word) &&& 0x0000707F = 0x00006033 ∧
    (0x01FFEFB3 : Word) &&& 0xFE00707F = 0x00006033 ∧
    (0xFFFFFFB3 : Word) &&& 0x0000707F = 0x00007033 ∧
    (0x01FFFFB3 : Word) &&& 0xFE00707F = 0x00007033 ∧
    (0x01FFDFB3 : Word) &&& 0xFE00707F = 0x00005033 ∧
    (0x41FFDFB3 : Word) &&& 0xFE00707F = 0x40005033 := by decide
theorem witness_encodings_op_imm :
    (0xFFFF8F93 : Word) &&& 0x0000707F = 0x00000013 ∧
    (0xFFFF9F93 : Word) &&& 0x0000707F = 0x00001013 ∧
    (0x01FF9F93 : Word) &&& 0xFE00707F = 0x00001013 ∧
    (0xFFFFAF93 : Word) &&& 0x0000707F = 0x00002013 ∧
    (0xFFFFBF93 : Word) &&& 0x0000707F = 0x00003013 ∧
    (0xFFFFCF93 : Word) &&& 0x0000707F = 0x00004013 ∧
    (0xFFFFEF93 : Word) &&& 0x0000707F = 0x00006013 ∧
    (0xFFFFFF93 : Word) &&& 0x0000707F = 0x00007013 ∧
    (0x01FFDF93 : Word) &&& 0xFE00707F = 0x00005013 ∧
    (0x41FFDF93 : Word) &&& 0xFE00707F = 0x40005013 := by decide
theorem witness_encodings_classes :
    (0xFFFFFF83 : Word) &&& 0x0000007F = 0x00000003 ∧
    (0xFFFFFFA3 : Word) &&& 0x0000007F = 0x00000023 ∧
    (0xFFFFFFE3 : Word) &&& 0x0000007F = 0x00000063 ∧
    (0xFFFFFFEF : Word) &&& 0x0000007F = 0x0000006F ∧
    (0xFFFFFFE7 : Word) &&& 0x0000007F = 0x00000067 ∧
    (0xFFFFFFF3 : Word) &&& 0x0000007F = 0x00000073 ∧
    (0xFFFFFFB7 : Word) &&& 0x0000007F = 0x00000037 ∧
    (0xFFFFFF97 : Word) &&& 0x0000007F = 0x00000017 := by decide
/-- StrictReadingOnlyRefusesMore, CompletedInstructionWritesOnlyItsDestination: completion under the strict reading. -/
theorem witness_strict_completes :
    (start hwStrict []).cfg.strictFunct7 = true ∧
    exec (.xor 6 1 2 0) (start hwStrict []) = .next ((start hwStrict []).complete 6 0) := ⟨rfl, rfl⟩
/-- StepRunsTheDecodedInstruction. -/
theorem witness_fetched_word :
    ((start hw []).withFetchWord 32 0x00500093).ifetch 0x100 = some 0x00500093 ∧
    ((start hw []).withFetchWord 32 0x00500093).pc = 0x100 := by decide
/-- AbsentWordRaisesFetchUnavailable. -/
theorem witness_absent_word : (start hw []).ifetch (start hw []).pc = none := by decide
/-- PlacedInstructionRunsNext: an address other than pc. -/
theorem witness_another_address : (0x104 : Nat) ≠ (start hw []).pc := by decide
/-- OnlyWrites: pc below the wrap, up to the last such pc, and a register other than rd. -/
theorem witness_frame_boundary :
    (start hw []).pc + 4 < 2 ^ (start hw []).cfg.pcWidth ∧ 0xFFFFFFFB + 4 < 2 ^ hw.pcWidth ∧
    ¬ (0xFFFFFFFC + 4 < 2 ^ hw.pcWidth) ∧ 0xFFFFFFFC + 4 < 2 ^ hwWide.pcWidth ∧ (0 : RegIdx) ≠ 31 := by decide
/-- ResultDependsOnSourceRegistersOnly: two states that differ in x9 alone, an instruction that completes there. -/
theorem witness_agreeing_states :
    (start hw [(1, 5)]).cfg = (start hw [(1, 5), (9, 3)]).cfg ∧
    (∀ r ∈ sourcesOf (.addi 2 1 0xFFF), (start hw [(1, 5)]).readReg r = (start hw [(1, 5), (9, 3)]).readReg r) ∧
    destOf (.addi 2 1 0xFFF) = some 2 := by decide
/-- ResultDependsOnSourceRegistersOnly: the first clause. -/
theorem witness_agreeing_states_complete :
    exec (.addi 2 1 0xFFF) (start hw [(1, 5)]) = .next ((start hw [(1, 5)]).complete 2 4) := by rfl
/-- ResultDependsOnSourceRegistersOnly: the second clause. -/
theorem witness_agreeing_states_fault :
    exec (.sra 2 1 3) (start hw [(1, 5)]) = .fault (.unsupportedOperation 0b0110011 0b101 0b0100000) := rfl
/-- ResultDependsOnSourceRegistersOnly: the third clause. -/
theorem witness_agreeing_states_refused : exec (.jal 1) (start hw [(1, 5)]) = .refused (.notImplemented .jal) := rfl
/-- OutcomeDependsOnThreeFieldsOnly: two ADD words with other registers. -/
theorem witness_agreeing_fields :
    opcodeOf 0x00728133 = opcodeOf 0x00208033 ∧ funct3Of 0x00728133 = funct3Of 0x00208033 ∧
    funct7Of 0x00728133 = funct7Of 0x00208033 ∧ (start hw [(1, 5)]).cfg = (start hw []).cfg := by decide
/-- StepKeepsTheInvariant: a state of the invariant that steps to a next state. -/
theorem witness_invariant_step :
    ((start hw []).withFetchWord 32 0x13).regs.get 0 = 0 ∧
    ((start hw []).withFetchWord 32 0x13).pc < 2 ^ ((start hw []).withFetchWord 32 0x13).cfg.pcWidth ∧
    Memory.wf ((start hw []).withFetchWord 32 0x13).imem ∧
    Memory.within ((start hw []).withFetchWord 32 0x13).cfg.pcWidth ((start hw []).withFetchWord 32 0x13).imem ∧
    codeOf (step ((start hw []).withFetchWord 32 0x13)) = some .ok := by decide
/-- LaunchAndHostEditsMeetTheInvariant: a host write that succeeds. -/
theorem witness_invariant_edits :
    codeOf (match (start hw []).hostWrite 31 (-1) with | .ok t => .next t | .error f => .fault f) = some .ok ∧
    (start hw []).regs.get 0 = 0 ∧ (start hw []).pc < 2 ^ (start hw []).cfg.pcWidth ∧ Memory.wf (start hw []).imem ∧
    Memory.within (start hw []).cfg.pcWidth (start hw []).imem := by decide
/-- RunAdvancesPcByFourPerStep: pc within its width, and a width of at least 2. -/
theorem witness_run_pc :
    (start hw []).pc < 2 ^ (start hw []).cfg.pcWidth ∧ 2 ≤ (start hw []).cfg.pcWidth := by decide
/-- RunEndsAtTheFirstError: the three ways a run ends. -/
theorem witness_run_ends :
    (runUpTo 1 ((start hw []).withFetchWord 32 0x13)).ended = .stepsDone ∧
    (runUpTo 2 ((start hw []).withFetchWord 32 0x13)).ended = .fault (.fetchUnavailable 0x104) ∧
    (runUpTo 2 ((start hw []).withFetchWord 32 0x73)).ended = .refused (.notImplemented .system) := by decide
/-- OpcodeTableRowsAreDisjoint: a row and a word it takes. -/
theorem witness_table_rows_taken :
    (⟨"ADD", 0x00000033, 0xFE00707F, 0xFE00707F, .ok, .ok⟩ : TableRow) ∈ opRows ++ opImmRows ++ classRows ∧
    (⟨"ADD", 0x00000033, 0xFE00707F, 0xFE00707F, .ok, .ok⟩ : TableRow).takes hw 0x00728133 = true := by decide

end Sys2Proof.Tests
end

section
/-! PROOF. What a register read returns after a write (10_state.md R22, R25, R26), and the two statements about the register
file. -/

namespace Sys2Proof.Machine

/-! ### Reading a register -/

@[simp] theorem State.readReg_zero (s : State) : s.readReg 0 = 0 := if_pos rfl

/-- Any other register than 0 reads as its slot. -/
theorem State.readReg_of_ne_zero (s : State) {i : RegIdx} (h : i ≠ 0) : s.readReg i = s.regs[i.toNat] := if_neg h

/-! ### Reading after a write -/

/-- The written register, when it is not 0, reads as the value. -/
theorem State.readReg_writeReg_same (s : State) {i : RegIdx} (h : i ≠ 0) (v : Word) :
    (s.writeReg i v).readReg i = v := by
  simp [readReg_of_ne_zero _ h, writeReg_regs s h]

/-- Every other register reads as before, also when the write goes to 0 or the read is of 0. -/
theorem State.readReg_writeReg_of_ne (s : State) {i j : RegIdx} (h : j ≠ i) (v : Word) :
    (s.writeReg i v).readReg j = s.readReg j := by
  by_cases hi : i = 0
  · rw [hi, writeReg_zero_eq]
  by_cases hj : j = 0
  · rw [hj, readReg_zero, readReg_zero]
  have hslot : i.toNat ≠ j.toNat := fun e => h (BitVec.eq_of_toNat_eq e).symm
  simp only [readReg_of_ne_zero _ hj, writeReg_regs s hi]
  exact Vector.getElem_set_ne i.isLt j.isLt hslot

/-! ### The statements -/

/-- Settles O4: the two rules for a read after a write, and the fields a write leaves. -/
theorem registerReadAfterWrite : Obligations.RegisterReadAfterWrite := by
  intro s i v
  refine ⟨fun h => s.readReg_writeReg_same h v, ?_, fun _ h => s.readReg_writeReg_of_ne h v,
    s.writeReg_pc i v, s.writeReg_imem i v, s.writeReg_cfg i v⟩
  rintro rfl
  exact s.writeReg_zero_eq v

/-- Settles O3: a read of 0 does not look at the slot, and a write to 0 is the identity on the state. -/
theorem registerZeroIsHardwired : Obligations.RegisterZeroIsHardwired :=
  fun s v => ⟨s.readReg_zero, (s.writeReg 0 v).readReg_zero, s.writeReg_zero_eq v⟩

end Sys2Proof.Machine
end

section
/-! PROOF. The six fields of a word as numbers (30_encoding.md R72): the shift and the mask of each, and the statement that
collects them. -/

namespace Sys2Proof

/-- A run of bits as a number: the shift is a quotient and the mask a remainder. -/
theorem toNat_extractLsb'_eq_div_mod (w : Word) (start len : Nat) :
    (w.extractLsb' start len).toNat = w.toNat / 2 ^ start % 2 ^ len := by
  rw [BitVec.extractLsb'_toNat, Nat.shiftRight_eq_div_pow]

/-- The opcode starts at bit 0, so its shift is none. -/
theorem toNat_opcodeOf (w : Word) : (opcodeOf w).toNat = w.toNat % 2 ^ 7 := by
  rw [opcodeOf, toNat_extractLsb'_eq_div_mod, Nat.pow_zero, Nat.div_one]

theorem toNat_rdOf (w : Word) : (rdOf w).toNat = w.toNat / 2 ^ 7 % 2 ^ 5 := toNat_extractLsb'_eq_div_mod w 7 5

theorem toNat_funct3Of (w : Word) : (funct3Of w).toNat = w.toNat / 2 ^ 12 % 2 ^ 3 := toNat_extractLsb'_eq_div_mod w 12 3

theorem toNat_rs1Of (w : Word) : (rs1Of w).toNat = w.toNat / 2 ^ 15 % 2 ^ 5 := toNat_extractLsb'_eq_div_mod w 15 5

theorem toNat_rs2Of (w : Word) : (rs2Of w).toNat = w.toNat / 2 ^ 20 % 2 ^ 5 := toNat_extractLsb'_eq_div_mod w 20 5

theorem toNat_funct7Of (w : Word) : (funct7Of w).toNat = w.toNat / 2 ^ 25 % 2 ^ 7 := toNat_extractLsb'_eq_div_mod w 25 7

/-- Settles O7: each field is its range of bits, read as a number. -/
theorem fieldsAreShiftThenMask : Obligations.FieldsAreShiftThenMask :=
  fun w => ⟨toNat_opcodeOf w, toNat_rdOf w, toNat_funct3Of w, toNat_rs1Of w, toNat_rs2Of w, toNat_funct7Of w⟩

end Sys2Proof
end

section
/-! PROOF. What the ALU computes (40_execute_stage.md R121 to R129): the model's two readings of an operand, as a signed value
and as a shift amount, then one equation per operation, and the four statements they add up to. -/

namespace Sys2Proof.Machine

/-! ### The readings of an operand -/

/-- R8's signed value is the library's. -/
theorem signed_eq_toInt (v : Word) : signed v = v.toInt := by
  rw [BitVec.toInt_eq_toNat_cond]
  unfold signed
  split <;> split <;> omega

/-- R8 read backwards: a word as a number is its signed value modulo 2^32. -/
theorem toNat_eq_signed_emod (v : Word) : (v.toNat : Int) = signed v % 2 ^ 32 := by
  unfold signed
  split <;> omega

/-- The mask of five ones is a remainder (R126). -/
theorem shiftAmount_eq_mod (b : Word) : shiftAmount b = b.toNat % 32 :=
  Nat.and_two_pow_sub_one_eq_mod b.toNat 5

/-! ### Sum and difference -/

theorem toNat_alu_add (a b : Word) : (alu .add a b).toNat = (a.toNat + b.toNat) % 2 ^ 32 := BitVec.toNat_add a b

/-- The library adds the complement 2^32 - b, one multiple of the modulus more than the difference R122 states. -/
theorem toNat_alu_sub (a b : Word) : ((alu .sub a b).toNat : Int) = ((a.toNat : Int) - b.toNat) % 2 ^ 32 := by
  have complement : (alu .sub a b).toNat = (2 ^ 32 - b.toNat + a.toNat) % 2 ^ 32 := BitVec.toNat_sub a b
  omega

/-! ### Bits -/

theorem getLsbD_alu_xor (a b : Word) (i : Nat) :
    (alu .xor a b).getLsbD i = (a.getLsbD i ^^ b.getLsbD i) := BitVec.getLsbD_xor

theorem getLsbD_alu_or (a b : Word) (i : Nat) :
    (alu .or a b).getLsbD i = (a.getLsbD i || b.getLsbD i) := BitVec.getLsbD_or

theorem getLsbD_alu_and (a b : Word) (i : Nat) :
    (alu .and a b).getLsbD i = (a.getLsbD i && b.getLsbD i) := BitVec.getLsbD_and

/-! ### Shifts -/

theorem toNat_alu_sll (a b : Word) : (alu .sll a b).toNat = a.toNat * 2 ^ (b.toNat % 32) % 2 ^ 32 := by
  rw [alu, shiftAmount_eq_mod, BitVec.toNat_shiftLeft, Nat.shiftLeft_eq]

theorem toNat_alu_srl (a b : Word) : (alu .srl a b).toNat = a.toNat / 2 ^ (b.toNat % 32) := by
  rw [alu, shiftAmount_eq_mod, BitVec.toNat_ushiftRight, Nat.shiftRight_eq_div_pow]

/-- On signed values an arithmetic right shift is a floor quotient, with no wrap. -/
theorem signed_alu_sra (a b : Word) : signed (alu .sra a b) = signed a / 2 ^ (b.toNat % 32) := by
  rw [alu, shiftAmount_eq_mod, signed_eq_toInt, signed_eq_toInt, BitVec.toInt_sshiftRight, Int.shiftRight_eq_div_pow,
    Nat.cast_pow, Nat.cast_ofNat]

/-! ### The signed comparison -/

theorem lessSigned_eq_decide (a b : Word) : lessSigned a b = decide (signed a < signed b) := by
  rw [signed_eq_toInt, signed_eq_toInt]; rfl

theorem toNat_truthWord (c : Bool) : (truthWord c).toNat = if c then 1 else 0 := by
  cases c <;> rfl

theorem toNat_alu_slt (a b : Word) : (alu .slt a b).toNat = if signed a < signed b then 1 else 0 := by
  rw [alu, toNat_truthWord, lessSigned_eq_decide]
  simp only [decide_eq_true_eq]

/-! ### The statements -/

/-- Settles O18: the sum and the difference modulo 2^32. -/
theorem aluAddAndSubWrap : Obligations.AluAddAndSubWrap :=
  fun a b => ⟨toNat_alu_add a b, toNat_alu_sub a b⟩

/-- Settles O20: the amount is the second operand modulo 32; SRA's number is its signed value, the floor quotient, modulo
2^32. -/
theorem aluShiftsByTheLowFiveBits : Obligations.AluShiftsByTheLowFiveBits := by
  intro a b
  refine ⟨toNat_alu_sll a b, toNat_alu_srl a b, ?_⟩
  rw [toNat_eq_signed_emod, signed_alu_sra]

/-- Settles O19: bit i of the result is the operation on bits i of the operands. -/
theorem aluBitwiseOperations : Obligations.AluBitwiseOperations := by
  intro a b i _
  rw [getLsbD_alu_xor, getLsbD_alu_or, getLsbD_alu_and]
  exact ⟨bne_iff_ne, Bool.or_eq_true_iff, Bool.and_eq_true_iff⟩

/-- Settles O21: the comparison of the signed values, as a number. -/
theorem aluSignedComparison : Obligations.AluSignedComparison := toNat_alu_slt

end Sys2Proof.Machine
end

section
/-! PROOF. The rows ADD, SUB and SRL of class OP (41_op_register_register.md R150, R151, R155): what a completed operation
leaves, which word each row's mask selects, and the three statements. -/

namespace Sys2Proof

/-! ### The words a mask selects -/

/-- A word that a mask over opcode, funct3 and funct7 selects holds the three fields of the match word: R100's `mask` covers
each of the three whole. -/
theorem fields_of_and_rowMask {w m : Word} (h : w &&& 0xFE00707F = m) :
    opcodeOf w = opcodeOf m ∧ funct3Of w = funct3Of m ∧ funct7Of w = funct7Of m := by
  have hop : opcodeOf 0xFE00707F = BitVec.allOnes 7 := by decide
  have hf3 : funct3Of 0xFE00707F = BitVec.allOnes 3 := by decide
  have hf7 : funct7Of 0xFE00707F = BitVec.allOnes 7 := by decide
  rw [← h, opcodeOf_and, funct3Of_and, funct7Of_and, hop, hf3, hf7]
  simp only [BitVec.and_allOnes, and_self]

/-- A word whose opcode is that of class OP is decoded by the table of R91. -/
theorem decode_of_op {w : Word} (h : opcodeOf w = opcodeBits .op) : decode w = decodeOp w := by
  rw [decode, h, recognise_opcodeBits]

/-! ### The cells of R91's table that hold the three rows -/

theorem decodeOp_add {w : Word} (h3 : funct3Of w = 0b000) (h7 : funct7Of w = 0b0000000) :
    decodeOp w = .add (rdOf w) (rs1Of w) (rs2Of w) := by
  simp [decodeOp, h3, h7]

theorem decodeOp_sub {w : Word} (h3 : funct3Of w = 0b000) (h7 : funct7Of w = 0b0100000) :
    decodeOp w = .sub (rdOf w) (rs1Of w) (rs2Of w) := by
  simp [decodeOp, h3, h7]

theorem decodeOp_srl {w : Word} (h3 : funct3Of w = 0b101) (h7 : funct7Of w = 0b0000000) :
    decodeOp w = .srl (rdOf w) (rs1Of w) (rs2Of w) := by
  simp [decodeOp, h3, h7]

namespace Machine

/-! ### The encodings -/

/-- A row of class OP whose mask covers funct7 has its encoding when its cell of R91's table, the match word's funct3 and
funct7, gives its instruction. -/
theorem hasEncoding_of_opCell {m : Word} {i : Word → Instr} (hop : opcodeOf m = opcodeBits .op)
    (hcell : ∀ w, funct3Of w = funct3Of m → funct7Of w = funct7Of m → decodeOp w = i w) :
    HasEncoding 0xFE00707F m i := by
  intro w h
  obtain ⟨hop', h3, h7⟩ := fields_of_and_rowMask h
  exact (decode_of_op (hop'.trans hop)).trans (hcell w h3 h7)

theorem add_hasEncoding : HasEncoding 0xFE00707F 0x00000033 (fun w => .add (rdOf w) (rs1Of w) (rs2Of w)) :=
  hasEncoding_of_opCell rfl fun _ h3 h7 => decodeOp_add h3 h7

theorem sub_hasEncoding : HasEncoding 0xFE00707F 0x40000033 (fun w => .sub (rdOf w) (rs1Of w) (rs2Of w)) :=
  hasEncoding_of_opCell rfl fun _ h3 h7 => decodeOp_sub h3 h7

theorem srl_hasEncoding : HasEncoding 0xFE00707F 0x00005033 (fun w => .srl (rdOf w) (rs1Of w) (rs2Of w)) :=
  hasEncoding_of_opCell rfl fun _ h3 h7 => decodeOp_srl h3 h7

/-! ### What a completed operation leaves -/

/-- The advance reads no register and writes none, so a read after completion is a read after the write-back. -/
@[simp] theorem State.readReg_complete (s : State) (rd : RegIdx) (y : Word) (i : RegIdx) :
    (s.complete rd y).readReg i = (s.writeReg rd y).readReg i := by
  rw [State.complete, State.readReg_advance]

/-- The destination of a completed operation, as a number: the result, or 0 in register 0 (R22, R23). -/
theorem State.toNat_readReg_complete (s : State) (rd : RegIdx) (y : Word) :
    ((s.complete rd y).readReg rd).toNat = if rd = 0 then 0 else y.toNat := by
  split
  · next h => rw [h, State.readReg_zero]; rfl
  · next h => rw [State.readReg_complete, State.readReg_writeReg_same s h]

/-- A completed operation changes its destination and pc alone (R113). -/
theorem State.onlyWrites_complete (s : State) (rd : RegIdx) (y : Word) : OnlyWrites s (s.complete rd y) rd := by
  refine ⟨fun r hr => ?_, fun hpc => ?_, fun a => ?_, s.complete_cfg rd y⟩
  · rw [State.readReg_complete, State.readReg_writeReg_of_ne s hr]
  · rw [State.complete_pc, wrapPc_of_lt hpc]
  · rw [State.ifetch, State.complete_imem, State.ifetch]

/-- An instruction that runs a register-register operation completes with what the ALU computes from the two registers. -/
theorem completesWith_of_runOp {i : Instr} {s : State} {op : AluOp} {rd rs1 rs2 : RegIdx}
    (h : exec i s = runOp op rd rs1 rs2 s) :
    CompletesWith i s rd (alu op (s.readReg rs1) (s.readReg rs2)).toNat :=
  ⟨_, h.trans (runOp_eq ..), s.toNat_readReg_complete rd _, s.onlyWrites_complete rd _⟩

/-! ### The statements -/

/-- Settles O24: ADD runs the ALU's sum. -/
theorem addCompletesWithTheSum : Obligations.AddCompletesWithTheSum := by
  refine ⟨fun rd rs1 rs2 s => ?_, add_hasEncoding⟩
  rw [← toNat_alu_add]
  exact completesWith_of_runOp rfl

/-- Settles O25: SUB runs the ALU's difference, which is not negative, so the statement's number is it. -/
theorem subCompletesWithTheDifference : Obligations.SubCompletesWithTheDifference := by
  refine ⟨fun rd rs1 rs2 s => ?_, sub_hasEncoding⟩
  rw [← toNat_alu_sub, Int.toNat_natCast]
  exact completesWith_of_runOp rfl

/-- Settles O29: SRL runs the ALU's zero-filled shift. -/
theorem srlCompletesWithTheRightShift : Obligations.SrlCompletesWithTheRightShift := by
  refine ⟨fun rd rs1 rs2 s => ?_, srl_hasEncoding⟩
  rw [← toNat_alu_srl]
  exact completesWith_of_runOp rfl

end Machine
end Sys2Proof
end

section
/-! PROOF. The round trips of the encoding: fields and words (30_encoding.md R78), words and instructions (R79, R80, R91, R92).
The decoder's table is read once, as a relation between a word and the instruction of its row; every later statement about
decoding goes through it. -/

namespace Sys2Proof

/-! ### Packing (R78 to R80) -/

/-- Packing the six fields of a word gives the word: they cover its 32 bits (R78). -/
theorem pack_fieldsOf (w : Word) : pack (fieldsOf w) = w := by
  ext i hi
  interval_cases i <;> simp [pack, fieldsOf, opcodeOf, rdOf, funct3Of, rs1Of, rs2Of, funct7Of]

/-- The fields of a packed tuple are the tuple (R78). -/
theorem fieldsOf_pack (f : Fields) : fieldsOf (pack f) = f := by
  rw [fieldsOf, opcodeOf_pack, rdOf_pack, funct3Of_pack, rs1Of_pack, rs2Of_pack, funct7Of_pack]

/-- Two words with the same six fields are the same word. -/
theorem eq_of_fieldsOf_eq {v w : Word} (h : fieldsOf v = fieldsOf w) : v = w := by
  rw [← pack_fieldsOf v, h, pack_fieldsOf]

/-- A class-OP word is the R-format word of its fields (R79). -/
theorem packOp_fields {w : Word} (h : opcodeOf w = opcodeBits .op) :
    packOp (funct3Of w) (funct7Of w) (rdOf w) (rs1Of w) (rs2Of w) = w := by
  rw [packOp, ← h]
  exact pack_fieldsOf w

/-- An OP-IMM word is the I-format word of its fields and its immediate (R80). -/
theorem packOpImm_fields {w : Word} (h : opcodeOf w = opcodeBits .opImm) :
    packOpImm (funct3Of w) (rdOf w) (rs1Of w) (imm12Of w) = w := by
  rw [packOpImm, imm12Of_eq, immFunct7_shiftImm, low_shiftImm, ← h]
  exact pack_fieldsOf w

/-- A word of an unhandled class is its opcode under its other 25 bits. -/
theorem packClass_restOf {w : Word} {c : OpcodeClass} (h : opcodeOf w = opcodeBits c) : packClass c (restOf w) = w := by
  rw [packClass, ← h]
  ext i hi
  interval_cases i <;> simp [opcodeOf, restOf]

section FieldsOfPackedWords
variable (f3 : Funct3) (f7 : Funct7) (rd rs1 rs2 : RegIdx) (imm : Imm12)

@[simp] theorem opcodeOf_packOp : opcodeOf (packOp f3 f7 rd rs1 rs2) = opcodeBits .op := opcodeOf_pack _
@[simp] theorem rdOf_packOp : rdOf (packOp f3 f7 rd rs1 rs2) = rd := rdOf_pack _
@[simp] theorem funct3Of_packOp : funct3Of (packOp f3 f7 rd rs1 rs2) = f3 := funct3Of_pack _
@[simp] theorem rs1Of_packOp : rs1Of (packOp f3 f7 rd rs1 rs2) = rs1 := rs1Of_pack _
@[simp] theorem rs2Of_packOp : rs2Of (packOp f3 f7 rd rs1 rs2) = rs2 := rs2Of_pack _
@[simp] theorem funct7Of_packOp : funct7Of (packOp f3 f7 rd rs1 rs2) = f7 := funct7Of_pack _

@[simp] theorem opcodeOf_packOpImm : opcodeOf (packOpImm f3 rd rs1 imm) = opcodeBits .opImm := opcodeOf_pack _
@[simp] theorem rdOf_packOpImm : rdOf (packOpImm f3 rd rs1 imm) = rd := rdOf_pack _
@[simp] theorem funct3Of_packOpImm : funct3Of (packOpImm f3 rd rs1 imm) = f3 := funct3Of_pack _
@[simp] theorem rs1Of_packOpImm : rs1Of (packOpImm f3 rd rs1 imm) = rs1 := rs1Of_pack _
@[simp] theorem rs2Of_packOpImm : rs2Of (packOpImm f3 rd rs1 imm) = imm.extractLsb' 0 5 := rs2Of_pack _
@[simp] theorem funct7Of_packOpImm : funct7Of (packOpImm f3 rd rs1 imm) = immFunct7 imm := funct7Of_pack _
@[simp] theorem imm12Of_packOpImm : imm12Of (packOpImm f3 rd rs1 imm) = imm := by
  rw [imm12Of_eq, funct7Of_packOpImm, rs2Of_packOpImm, shiftImm_split]

end FieldsOfPackedWords

/-- The upper seven immediate bits of a word are its funct7 field (R80). -/
theorem immFunct7_imm12Of (w : Word) : immFunct7 (imm12Of w) = funct7Of w := by
  rw [imm12Of_eq, immFunct7_shiftImm]

/-! ### The decoder's table as a relation (R91, R92, R94) -/

/-- The word stands for the instruction: one constructor per row of the opcode table, under the fields that select the row. -/
inductive DecodesTo (w : Word) : Instr → Prop where
  | add (ho : opcodeOf w = opcodeBits .op) (h3 : funct3Of w = 0b000) (h7 : funct7Of w = 0b0000000) :
      DecodesTo w (.add (rdOf w) (rs1Of w) (rs2Of w))
  | sub (ho : opcodeOf w = opcodeBits .op) (h3 : funct3Of w = 0b000) (h7 : funct7Of w = 0b0100000) :
      DecodesTo w (.sub (rdOf w) (rs1Of w) (rs2Of w))
  | sll (ho : opcodeOf w = opcodeBits .op) (h3 : funct3Of w = 0b001) :
      DecodesTo w (.sll (rdOf w) (rs1Of w) (rs2Of w) (funct7Of w))
  | slt (ho : opcodeOf w = opcodeBits .op) (h3 : funct3Of w = 0b010) :
      DecodesTo w (.slt (rdOf w) (rs1Of w) (rs2Of w) (funct7Of w))
  | xor (ho : opcodeOf w = opcodeBits .op) (h3 : funct3Of w = 0b100) :
      DecodesTo w (.xor (rdOf w) (rs1Of w) (rs2Of w) (funct7Of w))
  | srl (ho : opcodeOf w = opcodeBits .op) (h3 : funct3Of w = 0b101) (h7 : funct7Of w = 0b0000000) :
      DecodesTo w (.srl (rdOf w) (rs1Of w) (rs2Of w))
  | sra (ho : opcodeOf w = opcodeBits .op) (h3 : funct3Of w = 0b101) (h7 : funct7Of w = 0b0100000) :
      DecodesTo w (.sra (rdOf w) (rs1Of w) (rs2Of w))
  | or (ho : opcodeOf w = opcodeBits .op) (h3 : funct3Of w = 0b110) :
      DecodesTo w (.or (rdOf w) (rs1Of w) (rs2Of w) (funct7Of w))
  | and (ho : opcodeOf w = opcodeBits .op) (h3 : funct3Of w = 0b111) :
      DecodesTo w (.and (rdOf w) (rs1Of w) (rs2Of w) (funct7Of w))
  | addi (ho : opcodeOf w = opcodeBits .opImm) (h3 : funct3Of w = 0b000) :
      DecodesTo w (.addi (rdOf w) (rs1Of w) (imm12Of w))
  | slli (ho : opcodeOf w = opcodeBits .opImm) (h3 : funct3Of w = 0b001) :
      DecodesTo w (.slli (rdOf w) (rs1Of w) (rs2Of w) (funct7Of w))
  | slti (ho : opcodeOf w = opcodeBits .opImm) (h3 : funct3Of w = 0b010) :
      DecodesTo w (.slti (rdOf w) (rs1Of w) (imm12Of w))
  | sltiu (ho : opcodeOf w = opcodeBits .opImm) (h3 : funct3Of w = 0b011) :
      DecodesTo w (.sltiu (rdOf w) (rs1Of w) (imm12Of w))
  | xori (ho : opcodeOf w = opcodeBits .opImm) (h3 : funct3Of w = 0b100) :
      DecodesTo w (.xori (rdOf w) (rs1Of w) (imm12Of w))
  | srli (ho : opcodeOf w = opcodeBits .opImm) (h3 : funct3Of w = 0b101) (h7 : funct7Of w = 0b0000000) :
      DecodesTo w (.srli (rdOf w) (rs1Of w) (rs2Of w))
  | srai (ho : opcodeOf w = opcodeBits .opImm) (h3 : funct3Of w = 0b101) (h7 : funct7Of w = 0b0100000) :
      DecodesTo w (.srai (rdOf w) (rs1Of w) (rs2Of w))
  | ori (ho : opcodeOf w = opcodeBits .opImm) (h3 : funct3Of w = 0b110) :
      DecodesTo w (.ori (rdOf w) (rs1Of w) (imm12Of w))
  | andi (ho : opcodeOf w = opcodeBits .opImm) (h3 : funct3Of w = 0b111) :
      DecodesTo w (.andi (rdOf w) (rs1Of w) (imm12Of w))
  | load (ho : opcodeOf w = opcodeBits .load) : DecodesTo w (.load (restOf w))
  | store (ho : opcodeOf w = opcodeBits .store) : DecodesTo w (.store (restOf w))
  | branch (ho : opcodeOf w = opcodeBits .branch) : DecodesTo w (.branch (restOf w))
  | jal (ho : opcodeOf w = opcodeBits .jal) : DecodesTo w (.jal (restOf w))
  | jalr (ho : opcodeOf w = opcodeBits .jalr) : DecodesTo w (.jalr (restOf w))
  | system (ho : opcodeOf w = opcodeBits .system) : DecodesTo w (.system (restOf w))
  | lui (ho : opcodeOf w = opcodeBits .lui) : DecodesTo w (.lui (restOf w))
  | auipc (ho : opcodeOf w = opcodeBits .auipc) : DecodesTo w (.auipc (restOf w))
  | opUnsupported (ho : opcodeOf w = opcodeBits .op) (hcell : emptyOpCell (funct3Of w) (funct7Of w) = true) :
      DecodesTo w (.opUnsupported (funct3Of w) (funct7Of w) (rdOf w) (rs1Of w) (rs2Of w))
  | opImmUnsupported (ho : opcodeOf w = opcodeBits .opImm) (hcell : emptyOpImmCell (funct3Of w) (funct7Of w) = true) :
      DecodesTo w (.opImmUnsupported (funct3Of w) (rdOf w) (rs1Of w) (imm12Of w))
  | unknown (ho : recognise (opcodeOf w) = none) : DecodesTo w (.unknown w)

/-- The last of the eight funct3 values. -/
theorem funct3_eq_seven {f : Funct3} (h0 : ¬ f = 0b000) (h1 : ¬ f = 0b001) (h2 : ¬ f = 0b010) (h3 : ¬ f = 0b011)
    (h4 : ¬ f = 0b100) (h5 : ¬ f = 0b101) (h6 : ¬ f = 0b110) : f = 0b111 := by
  bv_omega

/-- The cells of R91 that hold no row (R158, R159). -/
theorem emptyOpCell_iff {f3 : Funct3} {f7 : Funct7} : emptyOpCell f3 f7 = true ↔
    f3 = 0b011 ∨ ((f3 = 0b000 ∨ f3 = 0b101) ∧ f7 ≠ 0b0000000 ∧ f7 ≠ 0b0100000) := by
  simp only [emptyOpCell, Bool.or_eq_true, Bool.and_eq_true, decide_eq_true_eq, and_assoc]

/-- The cells of R92 that hold no row (R179). -/
theorem emptyOpImmCell_iff {f3 : Funct3} {f7 : Funct7} : emptyOpImmCell f3 f7 = true ↔
    f3 = 0b101 ∧ f7 ≠ 0b0000000 ∧ f7 ≠ 0b0100000 := by
  simp only [emptyOpImmCell, Bool.and_eq_true, decide_eq_true_eq, and_assoc]

/-- A word of class OP stands for what the table of R91 answers. -/
theorem decodesTo_decodeOp {w : Word} (ho : opcodeOf w = opcodeBits .op) : DecodesTo w (decodeOp w) := by
  have empty {f3 : Funct3} (h3 : funct3Of w = f3) (hcell : emptyOpCell (funct3Of w) (funct7Of w) = true) :
      DecodesTo w (.opUnsupported f3 (funct7Of w) (rdOf w) (rs1Of w) (rs2Of w)) := h3 ▸ .opUnsupported ho hcell
  unfold decodeOp
  split_ifs with f0 z0 s0 f1 f2 f3 f4 f5 z5 s5 f6
  · exact .add ho f0 z0
  · exact .sub ho f0 s0
  · exact empty f0 (emptyOpCell_iff.mpr (.inr ⟨.inl f0, z0, s0⟩))
  · exact .sll ho f1
  · exact .slt ho f2
  · exact empty f3 (emptyOpCell_iff.mpr (.inl f3))
  · exact .xor ho f4
  · exact .srl ho f5 z5
  · exact .sra ho f5 s5
  · exact empty f5 (emptyOpCell_iff.mpr (.inr ⟨.inr f5, z5, s5⟩))
  · exact .or ho f6
  · exact .and ho (funct3_eq_seven f0 f1 f2 f3 f4 f5 f6)

/-- A word of class OP-IMM stands for what the table of R92 answers. -/
theorem decodesTo_decodeOpImm {w : Word} (ho : opcodeOf w = opcodeBits .opImm) : DecodesTo w (decodeOpImm w) := by
  unfold decodeOpImm
  split_ifs with f0 f1 f2 f3 f4 f5 z5 s5 f6
  · exact .addi ho f0
  · exact .slli ho f1
  · exact .slti ho f2
  · exact .sltiu ho f3
  · exact .xori ho f4
  · exact .srli ho f5 z5
  · exact .srai ho f5 s5
  · exact f5 ▸ .opImmUnsupported ho (emptyOpImmCell_iff.mpr ⟨f5, z5, s5⟩)
  · exact .ori ho f6
  · exact .andi ho (funct3_eq_seven f0 f1 f2 f3 f4 f5 f6)

/-- A word whose opcode is that of class OP-IMM is decoded by the table of R92. -/
theorem decode_of_opImm {w : Word} (h : opcodeOf w = opcodeBits .opImm) : decode w = decodeOpImm w := by
  rw [decode, h, recognise_opcodeBits]

/-- Every word stands for the instruction it decodes to: the decoder is total (R74, R94). -/
theorem decodesTo_decode (w : Word) : DecodesTo w (decode w) := by
  rcases hr : recognise (opcodeOf w) with _ | c
  · rw [decode, hr]
    exact .unknown hr
  · have ho := opcodeBits_of_recognise hr
    rw [decode, hr]
    cases c with
    | op => exact decodesTo_decodeOp ho
    | opImm => exact decodesTo_decodeOpImm ho
    | load => exact .load ho
    | store => exact .store ho
    | branch => exact .branch ho
    | jal => exact .jal ho
    | jalr => exact .jalr ho
    | system => exact .system ho
    | lui => exact .lui ho
    | auipc => exact .auipc ho

/-- A word stands for one instruction, the one it decodes to. -/
theorem DecodesTo.decode_eq {w : Word} {i : Instr} (h : DecodesTo w i) : decode w = i := by
  cases h with
  | add ho h3 h7 | sub ho h3 h7 | srl ho h3 h7 | sra ho h3 h7 => simp [decode_of_op ho, decodeOp, h3, h7]
  | sll ho h3 | slt ho h3 | xor ho h3 | or ho h3 | and ho h3 => simp [decode_of_op ho, decodeOp, h3]
  | addi ho h3 | slli ho h3 | slti ho h3 | sltiu ho h3 | xori ho h3 | ori ho h3 | andi ho h3 =>
    simp [decode_of_opImm ho, decodeOpImm, h3]
  | srli ho h3 h7 | srai ho h3 h7 => simp [decode_of_opImm ho, decodeOpImm, h3, h7]
  | load ho | store ho | branch ho | jal ho | jalr ho | system ho | lui ho | auipc ho => rw [decode, ho]; rfl
  | opUnsupported ho hcell =>
    rw [decode_of_op ho, decodeOp]
    obtain h3 | ⟨h3 | h3, hz, hs⟩ := emptyOpCell_iff.mp hcell
    · simp [h3]
    · simp_all
    · simp_all
  | opImmUnsupported ho hcell =>
    obtain ⟨h3, hz, hs⟩ := emptyOpImmCell_iff.mp hcell
    rw [decode_of_opImm ho, decodeOpImm]
    simp_all
  | unknown ho => rw [decode, ho]

/-! ### The word of an instruction -/

/-- The word of a well-formed instruction stands for it: its fields select the instruction's row. -/
theorem decode_encode {i : Instr} (h : i.wellFormed = true) : decode (encode i) = i := by
  cases i with
  | add | sub | sll | slt | xor | srl | sra | or | and => simp [encode, decode_of_op, decodeOp]
  | addi | slli | slti | sltiu | xori | srli | srai | ori | andi => simp [encode, decode_of_opImm, decodeOpImm]
  | load rest | store rest | branch rest | jal rest | jalr rest | system rest | lui rest | auipc rest =>
    rw [encode, decode, opcodeOf_packClass, recognise_opcodeBits, restOf_packClass]
  | opUnsupported f3 f7 rd rs1 rs2 =>
    simpa [encode] using (DecodesTo.opUnsupported (opcodeOf_packOp f3 f7 rd rs1 rs2)
      (by simpa [Instr.wellFormed] using h)).decode_eq
  | opImmUnsupported f3 rd rs1 imm =>
    simpa [encode] using (DecodesTo.opImmUnsupported (opcodeOf_packOpImm f3 rd rs1 imm)
      (by simpa [Instr.wellFormed] using h)).decode_eq
  | unknown w => exact (DecodesTo.unknown (of_decide_eq_true h)).decode_eq

/-- What a word stands for is well formed, and the word is its encoding: a row's constructor keeps every bit that the row's
fields do not fix. -/
theorem DecodesTo.encode_eq {w : Word} {i : Instr} (h : DecodesTo w i) : i.wellFormed = true ∧ encode i = w := by
  cases h with
  | add ho h3 h7 | sub ho h3 h7 | srl ho h3 h7 | sra ho h3 h7 =>
    exact ⟨rfl, by rw [encode, ← h3, ← h7, packOp_fields ho]⟩
  | sll ho h3 | slt ho h3 | xor ho h3 | or ho h3 | and ho h3 => exact ⟨rfl, by rw [encode, ← h3, packOp_fields ho]⟩
  | addi ho h3 | slti ho h3 | sltiu ho h3 | xori ho h3 | ori ho h3 | andi ho h3 =>
    exact ⟨rfl, by rw [encode, ← h3, packOpImm_fields ho]⟩
  | slli ho h3 => exact ⟨rfl, by rw [encode, ← imm12Of_eq, ← h3, packOpImm_fields ho]⟩
  | srli ho h3 h7 | srai ho h3 h7 => exact ⟨rfl, by rw [encode, ← h7, ← imm12Of_eq, ← h3, packOpImm_fields ho]⟩
  | load ho | store ho | branch ho | jal ho | jalr ho | system ho | lui ho | auipc ho =>
    exact ⟨rfl, packClass_restOf ho⟩
  | opUnsupported ho hcell => exact ⟨hcell, packOp_fields ho⟩
  | opImmUnsupported ho hcell =>
    exact ⟨by rwa [Instr.wellFormed, immFunct7_imm12Of], packOpImm_fields ho⟩
  | unknown ho => exact ⟨decide_eq_true ho, rfl⟩

/-! ### The statements -/

/-- Settles O10: the fields of an instruction's word select the instruction's own row. -/
theorem decodeOfEncodeIsTheInstruction : Obligations.DecodeOfEncodeIsTheInstruction := fun _ h => decode_encode h

/-- Settles O11: the word stands for what it decodes to, and no row loses a bit. -/
theorem encodeOfDecodeIsTheWord : Obligations.EncodeOfDecodeIsTheWord := fun w => (decodesTo_decode w).encode_eq

/-- Settles O8: the six fields cover the word and do not overlap. -/
theorem fieldsAndPackingRoundTrip : Obligations.FieldsAndPackingRoundTrip := ⟨pack_fieldsOf, fieldsOf_pack⟩

end Sys2Proof
end

section
/-! PROOF. What a word does, said by its fields (40_execute_stage.md R110 to R116): the class its opcode names and, for the two
executed classes, the operation that funct3 and funct7 select under the configuration. The spec's pseudocode, its block diagram
and the outcome's independence of all other bits are read off this one description. -/

namespace Sys2Proof.Machine

/-! ### The ten opcodes -/

/-- The opcodes that are not recognised are those outside the ten (R75, R77). -/
theorem recognise_eq_none_iff {o : Opcode} : recognise o = none ↔ o ∉ tenOpcodes := by
  unfold recognise
  split_ifs <;> simp_all [tenOpcodes]

/-- Each class's opcode is one of the ten (R75). -/
theorem opcodeBits_mem_tenOpcodes (c : OpcodeClass) : opcodeBits c ∈ tenOpcodes := by
  cases c <;> decide

/-! ### Execution by fields -/

/-- A word of an executed class on its second operand: the selected operation completes into `x[rd]`, and where none is selected
UnsupportedOperation is raised with the word's triple (R111, R116). -/
def runSelected (c : OpcodeClass) (w : Word) (s : State) (b : Word) : Option AluOp → Result
  | some op => .next (s.complete (rdOf w) (alu op (s.readReg (rs1Of w)) b))
  | none => raiseUnsupported c (funct3Of w) (funct7Of w)

/-- What a fetched word does in a state, by its fields alone. -/
def executeWord (w : Word) (s : State) : Result :=
  match recognise (opcodeOf w) with
  | some .op => runSelected .op w s (s.readReg (rs2Of w)) (selectOp s.cfg (funct3Of w) (funct7Of w))
  | some .opImm => runSelected .opImm w s (sext12 (imm12Of w))
      (if s.cfg.opimmImplemented then selectOpImm s.cfg (funct3Of w) (funct7Of w) else none)
  | some c => raiseNotImplemented c
  | none => raiseUnknown (opcodeOf w)

/-- The two ways an executed word ends. -/
theorem codeOf_runSelected (c : OpcodeClass) (w : Word) (s : State) (b : Word) (selected : Option AluOp) :
    codeOf (runSelected c w s b selected) = some (if selected.isSome then .ok else .unsupportedOperation) := by
  cases selected <;> rfl

theorem executeWord_op {w : Word} (ho : opcodeOf w = opcodeBits .op) (s : State) :
    executeWord w s = runSelected .op w s (s.readReg (rs2Of w)) (selectOp s.cfg (funct3Of w) (funct7Of w)) := by
  rw [executeWord, ho, recognise_opcodeBits]

theorem executeWord_opImm {w : Word} (ho : opcodeOf w = opcodeBits .opImm) (s : State) :
    executeWord w s = runSelected .opImm w s (sext12 (imm12Of w))
      (if s.cfg.opimmImplemented then selectOpImm s.cfg (funct3Of w) (funct7Of w) else none) := by
  rw [executeWord, ho, recognise_opcodeBits]

theorem executeWord_unhandled {w : Word} {c : OpcodeClass} (ho : opcodeOf w = opcodeBits c) (hop : c ≠ .op)
    (himm : c ≠ .opImm) (s : State) : executeWord w s = raiseNotImplemented c := by
  rw [executeWord, ho, recognise_opcodeBits]
  cases c with
  | op => exact absurd rfl hop
  | opImm => exact absurd rfl himm
  | load | store | branch | jal | jalr | system | lui | auipc => rfl

theorem executeWord_unknown {w : Word} (ho : recognise (opcodeOf w) = none) (s : State) :
    executeWord w s = raiseUnknown (opcodeOf w) := by
  rw [executeWord, ho]

/-! ### The meanings of the rows are the execution by fields -/

/-- A dash row's check on its selected operation is the selection's own (R93). -/
theorem dashRow_runSelected {w : Word} {f3 : Funct3} (h3 : funct3Of w = f3) (c : OpcodeClass) (s : State) (b : Word)
    (op : AluOp) : dashRow c f3 (funct7Of w) s (runSelected c w s b (some op)) =
      runSelected c w s b (if s.cfg.strictFunct7 && funct7Of w != 0 then none else some op) := by
  subst h3
  by_cases hs : s.cfg.strictFunct7 = true ∧ funct7Of w ≠ 0
  · have hsel : (s.cfg.strictFunct7 && funct7Of w != 0) = true := by simpa using hs
    rw [dashRow_raises hs.1 hs.2, if_pos hsel, runSelected]
  · have hsel : ¬ (s.cfg.strictFunct7 && funct7Of w != 0) = true := by simpa using hs
    rw [dashRow, if_neg hs, if_neg hsel]

/-- The arithmetic right shift's switch on its selected operation (R156, R176). -/
theorem sraRow_runSelected {w : Word} (h3 : funct3Of w = 0b101) (h7 : funct7Of w = 0b0100000) (c : OpcodeClass) (s : State)
    (b : Word) (op : AluOp) : sraRow c s (runSelected c w s b (some op)) =
      runSelected c w s b (if s.cfg.sraImplemented then some op else none) := by
  unfold sraRow
  split
  · rfl
  · rw [runSelected, h3, h7]

/-- The register-immediate class's switch on whatever is selected (R180). -/
theorem opImmClass_runSelected {w : Word} {f3 : Funct3} {f7 : Funct7} (h3 : funct3Of w = f3) (h7 : funct7Of w = f7)
    (s : State) (b : Word) (selected : Option AluOp) : opImmClass f3 f7 s (runSelected .opImm w s b selected) =
      runSelected .opImm w s b (if s.cfg.opimmImplemented then selected else none) := by
  unfold opImmClass
  split
  · rfl
  · rw [runSelected, h3, h7]

/-- A register-immediate operation on a word's own operands is what runs when it is selected. -/
theorem runOpImm_eq_runSelected (op : AluOp) (w : Word) (s : State) :
    runOpImm op (rdOf w) (rs1Of w) (imm12Of w) s = runSelected .opImm w s (sext12 (imm12Of w)) (some op) := rfl

/-- A row of class OP-IMM that no other switch governs: its operation runs where the class does. -/
theorem opImmRow_eq_executeWord {w : Word} {f3 : Funct3} {op : AluOp} (ho : opcodeOf w = opcodeBits .opImm)
    (h3 : funct3Of w = f3) (s : State) (hsel : selectOpImm s.cfg f3 (funct7Of w) = some op) :
    opImmClass f3 (immFunct7 (imm12Of w)) s (runOpImm op (rdOf w) (rs1Of w) (imm12Of w) s) = executeWord w s := by
  rw [runOpImm_eq_runSelected, executeWord_opImm ho, h3, hsel, ← opImmClass_runSelected h3 (immFunct7_imm12Of w).symm]

/-- A dash row of class OP: its operation runs where the selection consults no funct7 or finds it zero. -/
theorem opDashRow_eq_executeWord {w : Word} {f3 : Funct3} {op : AluOp} (ho : opcodeOf w = opcodeBits .op)
    (h3 : funct3Of w = f3) (s : State) (hsel : selectOp s.cfg f3 (funct7Of w) =
      if s.cfg.strictFunct7 && funct7Of w != 0 then none else some op) :
    dashRow .op f3 (funct7Of w) s (runOp op (rdOf w) (rs1Of w) (rs2Of w) s) = executeWord w s := by
  rw [executeWord_op ho, h3, hsel, ← dashRow_runSelected h3]
  rfl

/-- An empty cell of R91 selects no operation (R158, R159). -/
theorem selectOp_emptyCell {f3 : Funct3} {f7 : Funct7} (h : emptyOpCell f3 f7 = true) (c : Config) :
    selectOp c f3 f7 = none := by
  obtain rfl | ⟨rfl | rfl, hz, hs⟩ := emptyOpCell_iff.mp h <;> simp_all [selectOp]

/-- An empty cell of R92 selects no operation (R179). -/
theorem selectOpImm_emptyCell {f3 : Funct3} {f7 : Funct7} (h : emptyOpImmCell f3 f7 = true) (c : Config) :
    selectOpImm c f3 f7 = none := by
  obtain ⟨rfl, hz, hs⟩ := emptyOpImmCell_iff.mp h
  simp_all [selectOpImm]

/-- The meaning of the instruction a word decodes to is the execution of the word by its fields. -/
theorem exec_decode (w : Word) (s : State) : exec (decode w) s = executeWord w s := by
  have hw := decodesTo_decode w
  generalize decode w = i at hw ⊢
  cases hw with
  | add ho h3 h7 | sub ho h3 h7 | srl ho h3 h7 => rw [executeWord_op ho, h3, h7]; rfl
  | sll ho h3 | slt ho h3 | xor ho h3 | or ho h3 | and ho h3 => exact opDashRow_eq_executeWord ho h3 s rfl
  | sra ho h3 h7 => rw [executeWord_op ho, h3, h7]; exact sraRow_runSelected h3 h7 .op s _ .sra
  | addi ho h3 | slti ho h3 | sltiu ho h3 | xori ho h3 | ori ho h3 | andi ho h3 =>
    exact opImmRow_eq_executeWord ho h3 s rfl
  | slli ho h3 =>
    rw [executeWord_opImm ho, h3, ← opImmClass_runSelected h3 rfl, exec, execSlli, ← imm12Of_eq, runOpImm_eq_runSelected,
      dashRow_runSelected h3]
    rfl
  | srli ho h3 h7 =>
    have row := opImmRow_eq_executeWord ho h3 s (op := .srl) (by rw [h7]; rfl)
    rwa [immFunct7_imm12Of, imm12Of_eq, h7] at row
  | srai ho h3 h7 =>
    rw [executeWord_opImm ho, h3, h7, ← opImmClass_runSelected h3 h7, exec, execSrai, ← h7, ← imm12Of_eq,
      runOpImm_eq_runSelected, sraRow_runSelected h3 h7, h7]
    rfl
  | opUnsupported ho hcell => rw [executeWord_op ho, selectOp_emptyCell hcell]; rfl
  | opImmUnsupported ho hcell =>
    rw [executeWord_opImm ho, selectOpImm_emptyCell hcell, ite_self, runSelected, ← immFunct7_imm12Of]
    rfl
  | load ho | store ho | branch ho | jal ho | jalr ho | system ho | lui ho | auipc ho =>
    exact (executeWord_unhandled ho (by decide) (by decide) s).symm
  | unknown ho => exact (executeWord_unknown ho s).symm

/-! ### The statements -/

/-- Where pc holds a word, the step executes it. -/
theorem step_of_ifetch {s : State} {w : Word} (h : s.ifetch s.pc = some w) : step s = exec (decode w) s := by
  rw [step, h, executeStage]

/-- Where pc holds no word, the step raises FetchUnavailable (R52). -/
theorem step_of_absent {s : State} (h : s.ifetch s.pc = none) : step s = .fault (.fetchUnavailable s.pc) := by
  rw [step, h, executeStage, raiseFetchUnavailable]

/-- R116's last lines are the write-back and the advance. -/
theorem referenceFinish_eq (s : State) (op : AluOp) (rd : RegIdx) (a b : Word) :
    referenceFinish s op rd a b = .next (s.complete rd (alu op a b)) := rfl

/-- R116 after the fetch is the execution of the word by its fields. -/
theorem referenceStep_of_ifetch {s : State} {w : Word} (h : s.ifetch s.pc = some w) : referenceStep s = executeWord w s := by
  rcases hr : recognise (opcodeOf w) with _ | c
  · rw [referenceStep, h, executeWord_unknown hr]
    exact if_pos (recognise_eq_none_iff.mp hr)
  · have ho := opcodeBits_of_recognise hr
    cases c with
    | op =>
      rw [executeWord_op ho]
      cases hsel : selectOp s.cfg (funct3Of w) (funct7Of w) with
      | none => simp [referenceStep, h, ho, hsel, opcodeBits, runSelected, raiseUnsupported]
      | some op => simp [referenceStep, h, ho, hsel, opcodeBits, runSelected, referenceFinish_eq]
    | opImm =>
      rw [executeWord_opImm ho]
      cases himm : s.cfg.opimmImplemented with
      | false => simp [referenceStep, h, ho, himm, opcodeBits, runSelected, raiseUnsupported]
      | true =>
        cases hsel : selectOpImm s.cfg (funct3Of w) (funct7Of w) with
        | none => simp [referenceStep, h, ho, himm, hsel, opcodeBits, runSelected, raiseUnsupported]
        | some op => simp [referenceStep, h, ho, himm, hsel, opcodeBits, runSelected, referenceFinish_eq]
    | load | store | branch | jal | jalr | system | lui | auipc =>
      rw [executeWord_unhandled ho (by decide) (by decide)]
      simp [referenceStep, h, ho, opcodeBits, raiseNotImplemented]

/-- Settles O54: both are the execution of the fetched word by its fields. -/
theorem stepIsTheSpecsPseudocode : Obligations.StepIsTheSpecsPseudocode := by
  intro s
  rcases h : s.ifetch s.pc with _ | w
  · rw [step_of_absent h, referenceStep, h]
  · rw [step_of_ifetch h, exec_decode, referenceStep_of_ifetch h]

end Sys2Proof.Machine
end

section
/-! PROOF. The block diagram (40_execute_stage.md R118, R119; 10_state.md R28): one cycle is the step, because the decoder's ports
carry a word's fields and the write port with the pc update is the completion of a step. -/

namespace Sys2Proof.Machine

/-! ### The end of a cycle -/

/-- With `wen` 1 the write port does what a register write does (R23, R28). -/
theorem registerWritePort_enabled (s : State) (rd : RegIdx) (y : Word) :
    registerWritePort s.regs rd y true = (s.writeReg rd y).regs := by
  by_cases h : rd = 0
  · rw [h, State.writeReg_zero_eq]
    rfl
  · rw [State.writeReg_regs s h, registerWritePort]
    exact if_pos (by simpa using h)

/-- The state at the end of a cycle with this outcome code, destination and result: the completed step on Ok, and otherwise the
state the cycle began in. -/
def cycleEnd (s : State) (code : OutcomeCode) (rd : RegIdx) (y : Word) : State :=
  if code = .ok then s.complete rd y else s

/-- The register write and the pc update of R119, both enabled on Ok alone, leave the state of `cycleEnd`. -/
theorem clockCycle_state_eq_cycleEnd (s : State) (code : OutcomeCode) (rd : RegIdx) (y : Word) :
    { s with regs := registerWritePort s.regs rd y (code == .ok),
             pc := if code == .ok then wrapPc s.cfg (s.pc + 4) else s.pc } = cycleEnd s code rd y := by
  by_cases h : code = .ok
  · simp only [h, cycleEnd, beq_self_eq_true, if_true, registerWritePort_enabled]
    rw [State.complete, State.advance, State.writeReg_pc, State.writeReg_imem, State.writeReg_cfg, Config.pcStep]
  · rw [cycleEnd, if_neg h, beq_false_of_ne h]
    rfl

/-! ### The two ports of a cycle -/

/-- The outcome code of a cycle on a fetched word. -/
def wordCode (cfg : Config) (w : Word) : OutcomeCode :=
  outcomeBlock true (decoderBlock w) (selectBlock cfg (decoderBlock w))

/-- The code of a word whose opcode is one of the ten: by its class, and for the two executed classes by the selection. -/
theorem wordCode_of_class {w : Word} {c : OpcodeClass} (ho : opcodeOf w = opcodeBits c) (cfg : Config) :
    wordCode cfg w = if opcodeBits c != 0x33 && opcodeBits c != 0x13 then .notImplemented
      else if (selectBlock cfg (decoderBlock w)).isNone then .unsupportedOperation else .ok := by
  have hport : (decoderBlock w).unknownOpcode = false := by rw [decoderBlock, ho, recognise_opcodeBits]; rfl
  rw [wordCode, outcomeBlock, hport, ← ho]
  rfl

/-- A cycle with no word at pc reports it and changes nothing. -/
theorem clockCycle_of_absent {s : State} (h : s.ifetch s.pc = none) : clockCycle s = (.fetchUnavailable, s) := by
  rw [clockCycle, h]
  exact congrArg (Prod.mk OutcomeCode.fetchUnavailable) (clockCycle_state_eq_cycleEnd s .fetchUnavailable _ _)

/-- A cycle on a fetched word, its operation and its second operand as the blocks give them. -/
theorem clockCycle_of_ifetch {s : State} {w : Word} (h : s.ifetch s.pc = some w) :
    clockCycle s = (wordCode s.cfg w, cycleEnd s (wordCode s.cfg w) (rdOf w)
      (alu ((selectBlock s.cfg (decoderBlock w)).getD .add) (s.readReg (rs1Of w))
        (operandMux (decoderBlock w) (s.readReg (rs2Of w))))) := by
  rw [clockCycle, h, ← clockCycle_state_eq_cycleEnd]
  rfl

/-- A cycle on a word of an executed class, whose decoder ports select `selected` and whose second operand is `b`, is the
word's execution. -/
theorem cycle_eq_runSelected {c : OpcodeClass} {s : State} {w b : Word} {selected : Option AluOp}
    (hsel : selectBlock s.cfg (decoderBlock w) = selected)
    (hb : operandMux (decoderBlock w) (s.readReg (rs2Of w)) = b)
    (hcode : wordCode s.cfg w = if selected.isNone then .unsupportedOperation else .ok)
    (h : s.ifetch s.pc = some w) :
    some (clockCycle s).1 = codeOf (runSelected c w s b selected) ∧
      (clockCycle s).2 = stateAfter s (runSelected c w s b selected) := by
  rw [clockCycle_of_ifetch h, hsel, hb, hcode]
  cases selected <;> exact ⟨rfl, rfl⟩

/-- A cycle on a fetched word has the code of the word's execution and leaves the state it leaves. -/
theorem clockCycle_eq_executeWord {s : State} {w : Word} (h : s.ifetch s.pc = some w) :
    some (clockCycle s).1 = codeOf (executeWord w s) ∧ (clockCycle s).2 = stateAfter s (executeWord w s) := by
  rcases hr : recognise (opcodeOf w) with _ | c
  · have hcode : wordCode s.cfg w = .unknownOpcode := by simp [wordCode, outcomeBlock, decoderBlock, hr]
    rw [executeWord_unknown hr, clockCycle_of_ifetch h, hcode]
    exact ⟨rfl, rfl⟩
  · have ho := opcodeBits_of_recognise hr
    cases c with
    | op =>
      rw [executeWord_op ho]
      have hsel : selectBlock s.cfg (decoderBlock w) = selectOp s.cfg (funct3Of w) (funct7Of w) := by
        simp [selectBlock, decoderBlock, ho, opcodeBits]
      refine cycle_eq_runSelected hsel ?_ ?_ h
      · simp [operandMux, decoderBlock, ho, opcodeBits]
      · rw [wordCode_of_class ho, hsel]
        rfl
    | opImm =>
      rw [executeWord_opImm ho]
      have hsel : selectBlock s.cfg (decoderBlock w) =
          if s.cfg.opimmImplemented then selectOpImm s.cfg (funct3Of w) (funct7Of w) else none := by
        simp [selectBlock, decoderBlock, ho, opcodeBits]
      refine cycle_eq_runSelected hsel ?_ ?_ h
      · simp [operandMux, decoderBlock, ho, opcodeBits]
      · rw [wordCode_of_class ho, hsel]
        rfl
    | load | store | branch | jal | jalr | system | lui | auipc =>
      have hcode : wordCode s.cfg w = .notImplemented := by rw [wordCode_of_class ho]; rfl
      rw [executeWord_unhandled ho (by decide) (by decide), clockCycle_of_ifetch h, hcode]
      exact ⟨rfl, rfl⟩

/-- Settles O55: without a word at pc both report FetchUnavailable and change nothing; with one, both execute it by its
fields. -/
theorem clockCycleIsTheStep : Obligations.ClockCycleIsTheStep := by
  intro s
  rcases h : s.ifetch s.pc with _ | w
  · rw [step_of_absent h, clockCycle_of_absent h]
    exact ⟨rfl, rfl⟩
  · rw [step_of_ifetch h, exec_decode]
    exact clockCycle_eq_executeWord h

end Sys2Proof.Machine
end

section
/-! PROOF. What an Ok step leaves (10_state.md R29, R33, R113), the invariant of the machine, and runs (40_execute_stage.md R134).
Every Ok step is a completion, so each fact about steps is a fact about `State.complete`; each fact about runs follows from one
induction over the run. -/

namespace Sys2Proof.Machine

/-! ### An Ok step is a completion -/

/-- An instruction that answers a next state completed into its destination. -/
theorem exec_next {i : Instr} {s t : State} (h : exec i s = .next t) :
    ∃ rd y, destOf i = some rd ∧ t = s.complete rd y := by
  obtain ⟨rd, y, hd, he⟩ | ⟨c, f3, f7, he⟩ | ⟨c, he⟩ | ⟨o, he⟩ := exec_cases i s
  · exact ⟨rd, y, hd, Host.Outcome.next.inj (h.symm.trans he)⟩
  · exact nomatch h.symm.trans he
  · exact nomatch h.symm.trans he
  · exact nomatch h.symm.trans he

/-- A step that answers a next state completed. -/
theorem step_next {s t : State} (h : step s = .next t) : ∃ rd y, t = s.complete rd y := by
  rcases hf : s.ifetch s.pc with _ | w
  · exact nomatch (step_of_absent hf).symm.trans h
  · obtain ⟨rd, y, -, rfl⟩ := exec_next ((step_of_ifetch hf).symm.trans h)
    exact ⟨rd, y, rfl⟩

theorem step_next_pc {s t : State} (h : step s = .next t) : t.pc = (s.pc + 4) % 2 ^ s.cfg.pcWidth := by
  obtain ⟨rd, y, rfl⟩ := step_next h
  exact s.complete_pc rd y

theorem step_next_imem {s t : State} (h : step s = .next t) : t.imem = s.imem := by
  obtain ⟨rd, y, rfl⟩ := step_next h
  exact s.complete_imem rd y

theorem step_next_cfg {s t : State} (h : step s = .next t) : t.cfg = s.cfg := by
  obtain ⟨rd, y, rfl⟩ := step_next h
  exact s.complete_cfg rd y

/-! ### The invariant -/

/-- A completed operation keeps the invariant: slot 0 is never written and pc is wrapped to its width. -/
theorem State.complete_keeps_inv {s : State} (h : s.Inv) (rd : RegIdx) (y : Word) : (s.complete rd y).Inv := by
  obtain ⟨hzero, -, hwf, hwithin⟩ := h
  refine ⟨?_, ?_, ?_, ?_⟩
  · rw [State.complete_slot_zero, hzero]
  · rw [State.complete_pc, State.complete_cfg]
    exact wrapPc_lt ..
  · rwa [State.complete_imem]
  · rwa [State.complete_imem, State.complete_cfg]

/-- An Ok step keeps the invariant. -/
theorem step_keeps_inv {s t : State} (hi : s.Inv) (h : step s = .next t) : t.Inv := by
  obtain ⟨rd, y, rfl⟩ := step_next h
  exact State.complete_keeps_inv hi rd y

/-! ### Runs -/

/-- A relation that holds of every state with itself and can be extended by an Ok step in front holds between a run's first state
and its last. -/
theorem runUpTo_final_related {R : State → State → Prop} (refl : ∀ s, R s s)
    (stepFirst : ∀ {s t u}, step s = .next t → R t u → R s u) (n : Nat) (s : State) : R s (runUpTo n s).final := by
  induction n generalizing s with
  | zero => exact refl s
  | succ n ih =>
    rcases h : step s with t | f | r
    · rw [runUpTo_next h]
      exact stepFirst h (ih t)
    · rw [runUpTo_fault h]
      exact refl s
    · rw [runUpTo_refused h]
      exact refl s

theorem runUpTo_final_imem (n : Nat) (s : State) : (runUpTo n s).final.imem = s.imem :=
  runUpTo_final_related (R := fun s t => t.imem = s.imem) (fun _ => rfl) (fun h ht => ht.trans (step_next_imem h)) n s

theorem runUpTo_final_cfg (n : Nat) (s : State) : (runUpTo n s).final.cfg = s.cfg :=
  runUpTo_final_related (R := fun s t => t.cfg = s.cfg) (fun _ => rfl) (fun h ht => ht.trans (step_next_cfg h)) n s

theorem runUpTo_keeps_inv (n : Nat) (s : State) : s.Inv → (runUpTo n s).final.Inv :=
  runUpTo_final_related (R := fun s t => s.Inv → t.Inv) (fun _ => id) (fun h ht hi => ht (step_keeps_inv hi h)) n s

/-- An Ok step keeps pc modulo 4 where pc has at least two bits: 4 divides the modulus of the wrap. -/
theorem step_next_pc_mod_four {s t : State} (h : step s = .next t) (hw : 2 ≤ s.cfg.pcWidth) : t.pc % 4 = s.pc % 4 := by
  have hdvd : 4 ∣ 2 ^ s.cfg.pcWidth := pow_dvd_pow 2 hw
  rw [step_next_pc h, Nat.mod_mod_of_dvd _ hdvd, Nat.add_mod_right]

theorem runUpTo_final_pc_mod_four (n : Nat) (s : State) : 2 ≤ s.cfg.pcWidth → (runUpTo n s).final.pc % 4 = s.pc % 4 :=
  runUpTo_final_related (R := fun s t => 2 ≤ s.cfg.pcWidth → t.pc % 4 = s.pc % 4) (fun _ _ => rfl)
    (fun h ht hw => (ht (step_next_cfg h ▸ hw)).trans (step_next_pc_mod_four h hw)) n s

theorem runUpTo_okSteps_le (n : Nat) (s : State) : (runUpTo n s).okSteps ≤ n := by
  induction n generalizing s with
  | zero => exact le_refl 0
  | succ n ih =>
    rcases h : step s with t | f | r
    · rw [runUpTo_next h]
      exact Nat.succ_le_succ (ih t)
    · rw [runUpTo_fault h]
      exact Nat.zero_le _
    · rw [runUpTo_refused h]
      exact Nat.zero_le _

/-- pc after a run: 4 more per Ok step, modulo 2 to the power `PC_WIDTH` (R33, D8). -/
theorem runUpTo_final_pc (n : Nat) {s : State} (hpc : s.pc < 2 ^ s.cfg.pcWidth) :
    (runUpTo n s).final.pc = (s.pc + 4 * (runUpTo n s).okSteps) % 2 ^ s.cfg.pcWidth := by
  induction n generalizing s with
  | zero => exact (Nat.mod_eq_of_lt hpc).symm
  | succ n ih =>
    rcases h : step s with t | f | r
    · have ht : t.pc < 2 ^ t.cfg.pcWidth := by
        rw [step_next_pc h, step_next_cfg h]
        exact Nat.mod_lt _ (Nat.two_pow_pos _)
      rw [runUpTo_next h, ih ht, step_next_cfg h, step_next_pc h, Nat.mod_add_mod]
      congr 1
      ring
    · rw [runUpTo_fault h]
      exact (Nat.mod_eq_of_lt hpc).symm
    · rw [runUpTo_refused h]
      exact (Nat.mod_eq_of_lt hpc).symm

/-- The host's run of as many steps as a report counts Ok answers the report's final state. -/
theorem coreRun_okSteps (n : Nat) (s : State) : core.run (runUpTo n s).okSteps s = .next (runUpTo n s).final := by
  induction n generalizing s with
  | zero => rfl
  | succ n ih =>
    rcases h : step s with t | f | r
    · rw [runUpTo_next h, coreRun_next h]
      exact ih t
    · rw [runUpTo_fault h]
      rfl
    · rw [runUpTo_refused h]
      rfl

/-- How a report's end reads: a run not ended by an outcome took all its steps; a run ended by one took fewer, and that outcome is
what the step in its final state gives. -/
def RunEnd.Explains (r : RunReport) (n : Nat) : RunEnd → Prop
  | .stepsDone => r.okSteps = n
  | .fault f => r.okSteps < n ∧ step r.final = .fault f
  | .refused q => r.okSteps < n ∧ step r.final = .refused q

/-- Every report's end is explained by its steps and its final state. -/
theorem runUpTo_ended_explained (n : Nat) (s : State) : (runUpTo n s).ended.Explains (runUpTo n s) n := by
  induction n generalizing s with
  | zero => exact rfl
  | succ n ih =>
    rcases h : step s with t | f | r
    · have ht := ih t
      rw [runUpTo_next h]
      cases he : (runUpTo n t).ended with
      | stepsDone => rw [he] at ht; exact congrArg Nat.succ ht
      | fault f => rw [he] at ht; exact ⟨Nat.succ_lt_succ ht.1, ht.2⟩
      | refused q => rw [he] at ht; exact ⟨Nat.succ_lt_succ ht.1, ht.2⟩
    · rw [runUpTo_fault h]
      exact ⟨Nat.succ_pos n, h⟩
    · rw [runUpTo_refused h]
      exact ⟨Nat.succ_pos n, h⟩

/-- A run that an outcome ended is the same however many more steps it is allowed (D17). -/
theorem runUpTo_add_of_ended {n : Nat} {s : State} (h : (runUpTo n s).ended ≠ .stepsDone) (k : Nat) :
    runUpTo (n + k) s = runUpTo n s := by
  induction n generalizing s with
  | zero => exact absurd rfl h
  | succ n ih =>
    rw [Nat.succ_add]
    rcases hs : step s with t | f | r
    · rw [runUpTo_next hs] at h ⊢
      rw [runUpTo_next hs, ih h]
    · rw [runUpTo_fault hs, runUpTo_fault hs]
    · rw [runUpTo_refused hs, runUpTo_refused hs]

/-! ### The statements -/

/-- Settles O51: an Ok step completes, and completion keeps each clause. -/
theorem stepKeepsTheInvariant : Obligations.StepKeepsTheInvariant := fun _ _ => step_keeps_inv

/-- Settles O56: the count and pc by induction over the run, the rest because every Ok step keeps it. -/
theorem runAdvancesPcByFourPerStep : Obligations.RunAdvancesPcByFourPerStep := fun n s =>
  ⟨runUpTo_okSteps_le n s, runUpTo_final_pc n, runUpTo_final_pc_mod_four n s, runUpTo_final_imem n s, runUpTo_final_cfg n s,
    runUpTo_keeps_inv n s⟩

/-- Settles O57: the host's run confirms the counted steps, and the report's end is the next step's outcome. -/
theorem runEndsAtTheFirstError : Obligations.RunEndsAtTheFirstError := by
  intro n k s
  have explained := runUpTo_ended_explained n s
  refine ⟨coreRun_okSteps n s, fun he => ?_, fun f he => ?_, fun r he => ?_⟩
  · rwa [he] at explained
  · rw [he] at explained
    exact ⟨explained.1, explained.2, runUpTo_add_of_ended (by rw [he]; exact RunEnd.noConfusion) k⟩
  · rw [he] at explained
    exact ⟨explained.1, explained.2, runUpTo_add_of_ended (by rw [he]; exact RunEnd.noConfusion) k⟩

/-- Settles O47: the next state is the completion into the row's destination. -/
theorem completedInstructionWritesOnlyItsDestination : Obligations.CompletedInstructionWritesOnlyItsDestination := by
  intro i s t h
  obtain ⟨rd, y, hd, rfl⟩ := exec_next h
  exact ⟨rd, hd, s.onlyWrites_complete rd y, s.complete_pc rd y, s.complete_imem rd y⟩

/-- Settles O50: an absent word has its own outcome, and a word's execution ends in one of four. -/
theorem everyStepHasAnOutcomeCode : Obligations.EveryStepHasAnOutcomeCode := by
  intro s
  rcases hf : s.ifetch s.pc with _ | w
  · rw [step_of_absent hf]
    exact ⟨nofun, nofun⟩
  · rw [step_of_ifetch hf]
    obtain ⟨rd, y, -, he⟩ | ⟨c, f3, f7, he⟩ | ⟨c, he⟩ | ⟨o, he⟩ := exec_cases (decode w) s
    all_goals
      rw [he]
      exact ⟨nofun, nofun⟩

/-- Settles O44: the step is the fetch and then the execution. -/
theorem stepRunsTheDecodedInstruction : Obligations.StepRunsTheDecodedInstruction := fun _ _ => step_of_ifetch

/-- Settles O45: the fault leaves the state to the host as it was. -/
theorem absentWordRaisesFetchUnavailable : Obligations.AbsentWordRaisesFetchUnavailable := by
  intro s h
  rw [step_of_absent h]
  exact ⟨rfl, stateAfter_fault s _⟩

end Sys2Proof.Machine
end

section
/-! PROOF. The instruction source and what the host does between steps (20_memory.md section 1; 10_state.md sections 5 and 6;
70_reset_and_hazards.md sections 1 to 3): placing a word, launching, reading and writing a register, and the invariant at each of
them. -/

namespace Sys2Proof.Machine

/-! ### Placing a word -/

/-- A fetch after a placed word: at that address the new word or absence, at every other what was there. -/
theorem Memory.read_place {c : Config} {m : Memory} (h : Memory.wf m) {a : Nat} (ha : a < 2 ^ c.pcWidth) (v : Option Word)
    (b : Nat) : Memory.read (m.place c a v) b = if b = a then v else Memory.read m b := by
  rw [Memory.place, if_pos ha, Memory.read_write h]

theorem State.ifetch_placeWord_same {s : State} (h : Memory.wf s.imem) {a : Nat} (ha : a < 2 ^ s.cfg.pcWidth)
    (v : Option Word) : (s.placeWord a v).ifetch a = v := by
  rw [State.ifetch, State.placeWord_imem, Memory.read_place h ha, if_pos rfl]

/-- A number wider than an address places nothing (R57). -/
theorem State.placeWord_of_wide {s : State} {a : Nat} (ha : ¬ a < 2 ^ s.cfg.pcWidth) (v : Option Word) :
    s.placeWord a v = s := by
  rw [State.placeWord, Memory.place, if_neg ha]

theorem State.ifetch_placeWord_of_ne {s : State} (h : Memory.wf s.imem) {a b : Nat} (hb : b ≠ a) (v : Option Word) :
    (s.placeWord a v).ifetch b = s.ifetch b := by
  by_cases ha : a < 2 ^ s.cfg.pcWidth
  · rw [State.ifetch, State.placeWord_imem, Memory.read_place h ha, if_neg hb, State.ifetch]
  · rw [State.placeWord_of_wide ha]

/-- Settles O6: a fetch after a placed word, at its address and at every other. -/
theorem placedWordIsFetched : Obligations.PlacedWordIsFetched := fun _ _ v hwf =>
  ⟨fun ha => State.ifetch_placeWord_same hwf ha v, fun ha => State.placeWord_of_wide ha v,
    fun _ hb => State.ifetch_placeWord_of_ne hwf hb v⟩

/-- Settles O46: `withFetchWord` places the word at pc, and so the step fetches it. -/
theorem placedInstructionRunsNext : Obligations.PlacedInstructionRunsNext := by
  intro s n w hwf
  refine ⟨fun hpc => ?_, fun hpc => State.placeWord_of_wide hpc _, rfl, rfl, rfl,
    fun a ha => State.ifetch_placeWord_of_ne hwf ha _⟩
  exact step_of_ifetch (State.ifetch_placeWord_same hwf hpc _)

/-! ### Launch -/

/-- Supplying one more pair places its word last. -/
theorem Memory.ofList_concat (c : Config) (pairs : List (Nat × Word)) (p : Nat × Word) :
    Memory.ofList c (pairs ++ [p]) = (Memory.ofList c pairs).place c p.1 (some p.2) :=
  List.foldl_concat ..

/-- One more pair is the last one at its own address. -/
theorem lastWordAt_concat (pairs : List (Nat × Word)) (p : Nat × Word) (a : Nat) :
    lastWordAt (pairs ++ [p]) a = if p.1 = a then some p.2 else lastWordAt pairs a := by
  rw [lastWordAt, List.reverse_concat, List.find?_cons]
  by_cases h : p.1 = a <;> simp [h, lastWordAt]

/-- A loader's mapping answers the last pair at an address (R50). -/
theorem Memory.read_ofList (c : Config) (pairs : List (Nat × Word)) {a : Nat} (ha : a < 2 ^ c.pcWidth) :
    Memory.read (Memory.ofList c pairs) a = lastWordAt pairs a := by
  induction pairs using List.reverseRecOn with
  | nil => rfl
  | append_singleton pairs p ih =>
    rw [Memory.ofList_concat, lastWordAt_concat]
    by_cases hp : p.1 < 2 ^ c.pcWidth
    · rw [Memory.read_place (Memory.ofList_wf c pairs).1 hp, ih]
      simp only [eq_comm]
    · rw [Memory.place, if_neg hp, ih, if_neg (fun e : p.1 = a => hp (e ▸ ha))]

/-- A seeded slot: 0 in slot 0, the host's integer modulo 2^32 in every other (R41). -/
theorem readReg_launch (c : Config) (m : List (Nat × Word)) (init : RegIdx → Int) (pc0 : Int) {i : RegIdx} (hi : i ≠ 0) :
    (State.launch c m init pc0).readReg i = BitVec.ofInt 32 (init i) := by
  have hfin : ¬ (⟨i.toNat, i.isLt⟩ : Fin 32) = 0 := fun e => hi (BitVec.eq_of_toNat_eq (congrArg Fin.val e))
  rw [State.readReg_of_ne_zero _ hi]
  simp only [State.launch_regs, seedRegs, Vector.getElem_ofFn, if_neg hfin]
  rfl

/-- An integer stored in a register is the integer modulo 2^32 (R24). -/
theorem toNat_ofInt_word (v : Int) : ((BitVec.ofInt 32 v).toNat : Int) = v % 2 ^ 32 := by
  rw [BitVec.toNat_ofInt, Int.toNat_of_nonneg (Int.emod_nonneg v (by decide))]
  rfl

/-- Settles O2: registers and pc as seeded, and a fetch by the last pair at its address. -/
theorem launchSeedsRegistersAndPc : Obligations.LaunchSeedsRegistersAndPc := by
  intro c m init pc0
  refine ⟨State.readReg_zero _, fun i hi => ?_, ?_, rfl, fun a ha => Memory.read_ofList c m ha, fun a ha => ?_⟩
  · rw [readReg_launch c m init pc0 hi, toNat_ofInt_word]
  · exact Int.toNat_of_nonneg (Int.emod_nonneg pc0 (by positivity))
  · exact Memory.read_wide (State.launch_wf c m init pc0).2 ha

/-! ### The host's register access -/

theorem hostIndex_of_outside {k : Int} (h : ¬ (0 ≤ k ∧ k ≤ 31)) : hostIndex k = none := if_neg h

theorem hostIndex_of_inside {k : Int} (h : 0 ≤ k ∧ k ≤ 31) : hostIndex k = some (BitVec.ofNat 5 k.toNat) := by
  obtain ⟨n, rfl⟩ := Int.eq_ofNat_of_zero_le h.1
  rw [hostIndex, if_pos h]
  rfl

/-- Two indices the host can name are the same register only when they are equal (R27). -/
theorem hostIndex_inj {j k : Int} (hj : 0 ≤ j ∧ j ≤ 31) (hk : 0 ≤ k ∧ k ≤ 31)
    (h : BitVec.ofNat 5 j.toNat = BitVec.ofNat 5 k.toNat) : j = k := by
  have := congrArg BitVec.toNat h
  simp only [BitVec.toNat_ofNat] at this
  omega

theorem State.hostRead_of_outside (s : State) {k : Int} (h : ¬ (0 ≤ k ∧ k ≤ 31)) :
    s.hostRead k = .error (.invalidRegisterIndex k) := by
  rw [State.hostRead, hostIndex_of_outside h]

theorem State.hostRead_of_inside (s : State) {k : Int} (h : 0 ≤ k ∧ k ≤ 31) :
    s.hostRead k = .ok (s.readReg (BitVec.ofNat 5 k.toNat)) := by
  rw [State.hostRead, hostIndex_of_inside h]

theorem State.hostWrite_of_outside (s : State) {k : Int} (h : ¬ (0 ≤ k ∧ k ≤ 31)) (v : Int) :
    s.hostWrite k v = .error (.invalidRegisterIndex k) := by
  rw [State.hostWrite, hostIndex_of_outside h]

theorem State.hostWrite_of_inside (s : State) {k : Int} (h : 0 ≤ k ∧ k ≤ 31) (v : Int) :
    s.hostWrite k v = .ok (s.writeReg (BitVec.ofNat 5 k.toNat) (BitVec.ofInt 32 v)) := by
  rw [State.hostWrite, hostIndex_of_inside h]

/-- The register the host wrote, as a number: 0 in register 0, elsewhere the integer modulo 2^32. -/
theorem toNat_readReg_hostWritten (s : State) {k : Int} (h : 0 ≤ k ∧ k ≤ 31) (v : Int) :
    (((s.writeReg (BitVec.ofNat 5 k.toNat) (BitVec.ofInt 32 v)).readReg (BitVec.ofNat 5 k.toNat)).toNat : Int) =
      if k = 0 then 0 else v % 2 ^ 32 := by
  split
  · next hk =>
    subst hk
    exact congrArg (fun w : Word => (w.toNat : Int)) (State.readReg_zero _)
  · next hk =>
    have hne : BitVec.ofNat 5 k.toNat ≠ 0 := fun e => hk (hostIndex_inj h (by decide) e)
    rw [State.readReg_writeReg_same s hne, toNat_ofInt_word]

/-- Another index than the written one reads as before, inside the range and outside it. -/
theorem hostRead_hostWritten_of_ne (s : State) {j k : Int} (hk : 0 ≤ k ∧ k ≤ 31) (hjk : j ≠ k) (y : Word) :
    (s.writeReg (BitVec.ofNat 5 k.toNat) y).hostRead j = s.hostRead j := by
  by_cases hj : 0 ≤ j ∧ j ≤ 31
  · rw [State.hostRead_of_inside _ hj, State.hostRead_of_inside _ hj,
      State.readReg_writeReg_of_ne s (fun e => hjk (hostIndex_inj hj hk e))]
  · rw [State.hostRead_of_outside _ hj, State.hostRead_of_outside _ hj]

/-- Settles O5: the index is checked first, and inside the range the access is the register file's. -/
theorem hostAccessChecksTheIndex : Obligations.HostAccessChecksTheIndex := by
  intro s k v
  refine ⟨fun h => ⟨s.hostRead_of_outside h, s.hostWrite_of_outside h v⟩, fun h => ⟨s.hostRead_of_inside h, ?_⟩⟩
  refine ⟨_, s.hostWrite_of_inside h v, State.writeReg_pc .., State.writeReg_imem .., State.writeReg_cfg .., ?_,
    fun j hj => hostRead_hostWritten_of_ne s h hj _⟩
  exact ⟨_, State.hostRead_of_inside _ h, toNat_readReg_hostWritten s h v⟩

/-! ### Reset and the invariant -/

/-- Settles O1: the fields of the reset state. -/
theorem resetLeavesZerosAndDecidedSwitches : Obligations.ResetLeavesZerosAndDecidedSwitches := by
  refine ⟨fun i => ?_, rfl, fun _ => rfl, rfl, rfl, rfl, rfl⟩
  by_cases hi : i = 0
  · rw [hi, State.readReg_zero]
  · rw [State.readReg_of_ne_zero _ hi]
    exact Vector.getElem_replicate i.isLt

/-- Settles O52: the slots are zero, pc is 0 and there is no pair. -/
theorem resetMeetsTheInvariant : Obligations.ResetMeetsTheInvariant :=
  ⟨rfl, Nat.two_pow_pos _, State.reset_wf, nofun⟩

/-- Slot 0 is seeded with 0 whatever the host supplies (R41). -/
theorem seedRegs_slot_zero (init : RegIdx → Int) : (seedRegs init).get 0 = 0 :=
  (Vector.getElem_ofFn (by decide)).trans (if_pos rfl)

theorem State.launch_inv (c : Config) (m : List (Nat × Word)) (init : RegIdx → Int) (pc0 : Int) :
    (State.launch c m init pc0).Inv := by
  obtain ⟨hwf, hwithin⟩ := State.launch_wf c m init pc0
  refine ⟨seedRegs_slot_zero init, ?_, hwf, hwithin⟩
  have hlt := Int.emod_lt_of_pos pc0 (show (0 : Int) < 2 ^ c.pcWidth by positivity)
  rw [State.launch_pc, State.launch_cfg, Int.toNat_lt (Int.emod_nonneg pc0 (by positivity))]
  exact_mod_cast hlt

/-- A register write keeps the invariant: slot 0 keeps what it holds, and no other clause looks at a slot. -/
theorem State.writeReg_keeps_inv {s : State} (h : s.Inv) (i : RegIdx) (v : Word) : (s.writeReg i v).Inv := by
  simpa only [State.Inv, State.writeReg_slot_zero, State.writeReg_pc, State.writeReg_imem, State.writeReg_cfg] using h

/-- A host's write that succeeds is a register write. -/
theorem State.hostWrite_ok {s t : State} {k v : Int} (h : s.hostWrite k v = .ok t) : ∃ i y, t = s.writeReg i y := by
  by_cases hk : 0 ≤ k ∧ k ≤ 31
  · rw [State.hostWrite_of_inside s hk] at h
    exact ⟨_, _, (Except.ok.inj h).symm⟩
  · rw [State.hostWrite_of_outside s hk] at h
    exact nomatch h

theorem State.placeWord_keeps_inv {s : State} (h : s.Inv) (a : Nat) (v : Option Word) : (s.placeWord a v).Inv := by
  obtain ⟨hzero, hpc, hwf, hwithin⟩ := h
  exact ⟨hzero, hpc, State.placeWord_keeps_wf hwf a v, Memory.place_keeps_within hwithin a v⟩

theorem State.hostSkip_keeps_inv {s : State} (h : s.Inv) : s.hostSkip.Inv := by
  obtain ⟨hzero, -, hwf, hwithin⟩ := h
  exact ⟨hzero, wrapPc_lt .., hwf, hwithin⟩

/-- Settles O53: launch reduces and orders what it is given, and each edit keeps each clause. -/
theorem launchAndHostEditsMeetTheInvariant : Obligations.LaunchAndHostEditsMeetTheInvariant := by
  refine ⟨State.launch_inv, fun s t k v hi h => ?_,
    fun s a v hi => ⟨State.placeWord_keeps_inv hi a v, State.hostSkip_keeps_inv hi⟩⟩
  obtain ⟨i, y, rfl⟩ := State.hostWrite_ok h
  exact State.writeReg_keeps_inv hi i y

end Sys2Proof.Machine
end

section
/-! PROOF. The opcode table (30_encoding.md section 12): what each of its masks asks of a word's fields, that no two of its first 26
rows share a word, and that its first row for a word names the decoded instruction and its outcome. -/

namespace Sys2Proof.Machine

/-! ### The masks, read by fields -/

/-- A word under a mask is a match value exactly when each field is, under the mask's own field. -/
theorem and_eq_iff_fields {w mask m : Word} : w &&& mask = m ↔
    opcodeOf w &&& opcodeOf mask = opcodeOf m ∧ rdOf w &&& rdOf mask = rdOf m ∧
    funct3Of w &&& funct3Of mask = funct3Of m ∧ rs1Of w &&& rs1Of mask = rs1Of m ∧
    rs2Of w &&& rs2Of mask = rs2Of m ∧ funct7Of w &&& funct7Of mask = funct7Of m := by
  have hrd : rdOf (w &&& mask) = rdOf w &&& rdOf mask := by ext i hi; simp [rdOf]
  have hrs1 : rs1Of (w &&& mask) = rs1Of w &&& rs1Of mask := by ext i hi; simp [rs1Of]
  have hrs2 : rs2Of (w &&& mask) = rs2Of w &&& rs2Of mask := by ext i hi; simp [rs2Of]
  rw [← opcodeOf_and, ← funct3Of_and, ← funct7Of_and, ← hrd, ← hrs1, ← hrs2]
  refine ⟨by rintro rfl; simp only [and_self], fun ⟨ho, hd, h3, h1, h2, h7⟩ => eq_of_fieldsOf_eq ?_⟩
  rw [fieldsOf, fieldsOf, ho, hd, h3, h1, h2, h7]

/-- Under a mask that covers the opcode and no operand, a match value asks for its opcode and, under the mask, for its funct3
and funct7. -/
theorem and_eq_iff_of_operandFree {w mask m : Word} (hm : m &&& mask = m) (ho : opcodeOf mask = BitVec.allOnes 7)
    (hd : rdOf mask = 0) (h1 : rs1Of mask = 0) (h2 : rs2Of mask = 0) : w &&& mask = m ↔
      opcodeOf w = opcodeOf m ∧ funct3Of w &&& funct3Of mask = funct3Of m ∧ funct7Of w &&& funct7Of mask = funct7Of m := by
  obtain ⟨-, hmd, -, hm1, hm2, -⟩ := and_eq_iff_fields.mp hm
  simp only [hd, h1, h2, BitVec.ofNat_eq_ofNat, BitVec.and_zero] at hmd hm1 hm2
  simp only [and_eq_iff_fields, ho, hd, h1, h2, ← hmd, ← hm1, ← hm2, BitVec.ofNat_eq_ofNat, BitVec.and_zero,
    BitVec.and_allOnes, true_and]

/-- The mask over opcode, funct3 and funct7 asks for those three fields. -/
@[simp] theorem and_rowMask_eq_iff {w m : Word} (hm : m &&& 0xFE00707F#32 = m) : w &&& 0xFE00707F#32 = m ↔
    opcodeOf w = m.extractLsb' 0 7 ∧ funct3Of w = m.extractLsb' 12 3 ∧ funct7Of w = m.extractLsb' 25 7 := by
  have h3 : funct3Of 0xFE00707F#32 = BitVec.allOnes 3 := by decide
  have h7 : funct7Of 0xFE00707F#32 = BitVec.allOnes 7 := by decide
  rw [and_eq_iff_of_operandFree hm (by decide) (by decide) (by decide) (by decide), h3, h7, BitVec.and_allOnes,
    BitVec.and_allOnes]
  rfl

/-- The mask over opcode and funct3 asks for those two fields. -/
@[simp] theorem and_cellMask_eq_iff {w m : Word} (hm : m &&& 0x0000707F#32 = m) : w &&& 0x0000707F#32 = m ↔
    opcodeOf w = m.extractLsb' 0 7 ∧ funct3Of w = m.extractLsb' 12 3 := by
  have h3 : funct3Of 0x0000707F#32 = BitVec.allOnes 3 := by decide
  have h7 : funct7Of 0x0000707F#32 = 0#7 := by decide
  have hm7 : 0#7 = funct7Of m := by rw [← hm, funct7Of_and, h7, BitVec.and_zero]
  rw [and_eq_iff_of_operandFree hm (by decide) (by decide) (by decide) (by decide), h3, h7, ← hm7, BitVec.and_allOnes,
    BitVec.and_zero, eq_self, and_true]
  rfl

/-- The mask over opcode asks for that field. -/
@[simp] theorem and_classMask_eq_iff {w m : Word} (hm : m &&& 0x0000007F#32 = m) : w &&& 0x0000007F#32 = m ↔
    opcodeOf w = m.extractLsb' 0 7 := by
  have h3 : funct3Of 0x0000007F#32 = 0#3 := by decide
  have h7 : funct7Of 0x0000007F#32 = 0#7 := by decide
  have hm3 : 0#3 = funct3Of m := by rw [← hm, funct3Of_and, h3, BitVec.and_zero]
  have hm7 : 0#7 = funct7Of m := by rw [← hm, funct7Of_and, h7, BitVec.and_zero]
  rw [and_eq_iff_of_operandFree hm (by decide) (by decide) (by decide) (by decide), h3, h7, ← hm3, ← hm7, BitVec.and_zero,
    BitVec.and_zero, eq_self, eq_self, and_self, and_true]
  rfl

/-- The mask of a dash row asks for opcode and funct3, and under the strict reading for funct7 too (R93). -/
@[simp] theorem and_dashMask_eq_iff {w m : Word} {strict : Bool} (hm : m &&& 0x0000707F#32 = m) (hm' : m &&& 0xFE00707F#32 = m) :
    w &&& (if strict = true then 0xFE00707F#32 else 0x0000707F#32) = m ↔
      opcodeOf w = m.extractLsb' 0 7 ∧ funct3Of w = m.extractLsb' 12 3 ∧
        (strict = true → funct7Of w = m.extractLsb' 25 7) := by
  cases strict with
  | false => simpa using and_cellMask_eq_iff hm
  | true => simpa using and_rowMask_eq_iff hm'

/-! ### Disjoint rows -/

/-- The mask a row is tried under (R93). -/
def TableRow.maskUnder (strict : Bool) (r : TableRow) : Word := if strict then r.strictMask else r.mask

theorem TableRow.takes_iff {c : Config} {r : TableRow} {w : Word} :
    r.takes c w = true ↔ w &&& r.maskUnder c.strictFunct7 = r.matchBits := decide_eq_true_iff

/-- Two rows clash when their match values differ at a bit that both masks cover. -/
def TableRow.Clash (strict : Bool) (r q : TableRow) : Prop :=
  r.matchBits &&& q.maskUnder strict ≠ q.matchBits &&& r.maskUnder strict

/-- Rows that clash share no word: both match values are the word under both masks. -/
theorem TableRow.not_clash_of_takes {c : Config} {r q : TableRow} {w : Word} (hr : r.takes c w = true)
    (hq : q.takes c w = true) : ¬ r.Clash c.strictFunct7 q := by
  rw [TableRow.Clash, ← TableRow.takes_iff.mp hr, ← TableRow.takes_iff.mp hq, not_not, BitVec.and_assoc, BitVec.and_assoc,
    BitVec.and_comm (r.maskUnder _)]

/-- Every two of the first 26 rows clash, under either reading of the dash. -/
theorem tableRows_pairwise_clash (strict : Bool) :
    (opRows ++ opImmRows ++ classRows).Pairwise (TableRow.Clash strict) := by
  unfold TableRow.Clash
  cases strict <;> decide

/-- Settles O16: rows that both take a word do not clash, and different rows do. -/
theorem opcodeTableRowsAreDisjoint : Obligations.OpcodeTableRowsAreDisjoint := by
  intro c w r q hr hq hrw hqw
  have symm : Std.Symm (TableRow.Clash c.strictFunct7) := ⟨fun _ _ => Ne.symm⟩
  by_contra hne
  exact TableRow.not_clash_of_takes hrw hqw ((tableRows_pairwise_clash c.strictFunct7).forall hr hq hne)

/-! ### The rows a word can meet -/

/-- Both masks of the row cover the opcode. -/
def TableRow.coversOpcode (r : TableRow) : Bool :=
  opcodeOf r.mask = BitVec.allOnes 7 ∧ opcodeOf r.strictMask = BitVec.allOnes 7

/-- A row whose masks cover the opcode takes words of its match value's opcode alone. -/
theorem TableRow.opcodeOf_of_takes {c : Config} {r : TableRow} {w : Word} (hr : r.coversOpcode = true)
    (h : r.takes c w = true) : opcodeOf w = opcodeOf r.matchBits := by
  obtain ⟨hplain, hstrict⟩ := of_decide_eq_true hr
  have hmask : opcodeOf (r.maskUnder c.strictFunct7) = BitVec.allOnes 7 := by
    rw [TableRow.maskUnder]
    split
    · exact hstrict
    · exact hplain
  rw [← TableRow.takes_iff.mp h, opcodeOf_and, hmask, BitVec.and_allOnes]

/-- Rows of other opcodes than the word's take no part in the search. -/
theorem find?_takes_of_otherOpcode {rows : List TableRow} {o : Opcode} {w : Word} (ho : opcodeOf w = o)
    (h : ∀ r ∈ rows, r.coversOpcode = true ∧ o ≠ opcodeOf r.matchBits) (c : Config) :
    rows.find? (fun r => r.takes c w) = none := by
  refine List.find?_eq_none.mpr fun r hr htakes => ?_
  obtain ⟨hcovers, hne⟩ := h r hr
  exact hne (ho.symm.trans (TableRow.opcodeOf_of_takes hcovers htakes))

/-- The four parts of the table are searched in order. -/
theorem tableRow_eq_or (c : Config) (w : Word) : tableRow c w =
    (((opRows.find? (fun r => r.takes c w)).or (opImmRows.find? (fun r => r.takes c w))).or
      (classRows.find? (fun r => r.takes c w))).or (catchAllRows.find? (fun r => r.takes c w)) := by
  rw [tableRow, opcodeTable, List.find?_append, List.find?_append, List.find?_append]

theorem tableRow_of_op {w : Word} (ho : opcodeOf w = opcodeBits .op) (c : Config) :
    tableRow c w = (opRows ++ catchAllRows).find? (fun r => r.takes c w) := by
  rw [tableRow_eq_or, find?_takes_of_otherOpcode (rows := opImmRows) ho (by decide),
    find?_takes_of_otherOpcode (rows := classRows) ho (by decide), Option.or_none, Option.or_none, List.find?_append]

theorem tableRow_of_opImm {w : Word} (ho : opcodeOf w = opcodeBits .opImm) (c : Config) :
    tableRow c w = (opImmRows ++ catchAllRows).find? (fun r => r.takes c w) := by
  rw [tableRow_eq_or, find?_takes_of_otherOpcode (rows := opRows) ho (by decide),
    find?_takes_of_otherOpcode (rows := classRows) ho (by decide), Option.none_or, Option.or_none, List.find?_append]

theorem tableRow_of_other {w : Word} (hop : opcodeOf w ≠ opcodeBits .op) (himm : opcodeOf w ≠ opcodeBits .opImm)
    (c : Config) : tableRow c w = (classRows ++ catchAllRows).find? (fun r => r.takes c w) := by
  have hopRows : ∀ r ∈ opRows, r.coversOpcode = true ∧ opcodeBits .op = opcodeOf r.matchBits := by decide
  have himmRows : ∀ r ∈ opImmRows, r.coversOpcode = true ∧ opcodeBits .opImm = opcodeOf r.matchBits := by decide
  rw [tableRow_eq_or, find?_takes_of_otherOpcode (rows := opRows) rfl fun r hr => (hopRows r hr).imp_right fun e => e ▸ hop,
    find?_takes_of_otherOpcode (rows := opImmRows) rfl fun r hr => (himmRows r hr).imp_right fun e => e ▸ himm,
    Option.none_or, Option.none_or, List.find?_append]

/-! ### The first row that takes a word -/

/-- Settles O14: under the plain masks the rows before the decoded one differ from the word in a field. -/
theorem opcodeTableFirstRowIsTheDecodedRow : Obligations.OpcodeTableFirstRowIsTheDecodedRow := by
  intro c w hc
  have hw := decodesTo_decode w
  generalize decode w = i at hw ⊢
  cases hw with
  | add ho h3 h7 | sub ho h3 h7 | srl ho h3 h7 | sra ho h3 h7 =>
    rw [tableRow_of_op ho]
    simp [opRows, TableRow.takes, hc, ho, h3, h7, opcodeBits, mnemonicOf]
  | sll ho h3 | slt ho h3 | xor ho h3 | or ho h3 | and ho h3 =>
    rw [tableRow_of_op ho]
    simp [opRows, TableRow.takes, hc, ho, h3, opcodeBits, mnemonicOf]
  | srli ho h3 h7 | srai ho h3 h7 =>
    rw [tableRow_of_opImm ho]
    simp [opImmRows, TableRow.takes, hc, ho, h3, h7, opcodeBits, mnemonicOf]
  | addi ho h3 | slli ho h3 | slti ho h3 | sltiu ho h3 | xori ho h3 | ori ho h3 | andi ho h3 =>
    rw [tableRow_of_opImm ho]
    simp [opImmRows, TableRow.takes, hc, ho, h3, opcodeBits, mnemonicOf]
  | load ho | store ho | branch ho | jal ho | jalr ho | system ho | lui ho | auipc ho =>
    rw [tableRow_of_other (by rw [ho]; decide) (by rw [ho]; decide)]
    simp [classRows, TableRow.takes, hc, ho, opcodeBits, mnemonicOf]
  | opUnsupported ho hcell =>
    rw [tableRow_of_op ho]
    obtain h3 | ⟨h3 | h3, hz, hs⟩ := emptyOpCell_iff.mp hcell
    all_goals simp_all [opRows, catchAllRows, TableRow.takes, opcodeBits, mnemonicOf]
  | opImmUnsupported ho hcell =>
    rw [tableRow_of_opImm ho]
    obtain ⟨h3, hz, hs⟩ := emptyOpImmCell_iff.mp hcell
    simp_all [opImmRows, catchAllRows, TableRow.takes, opcodeBits, mnemonicOf]
  | unknown ho =>
    have hten := recognise_eq_none_iff.mp ho
    rw [tableRow_of_other (fun e => hten (e ▸ by decide)) (fun e => hten (e ▸ by decide))]
    simp_all [tenOpcodes, classRows, catchAllRows, TableRow.takes, mnemonicOf]

/-- Settles O15: the first row that takes a word under the configuration's masks has the outcome of the selection by fields. -/
theorem opcodeTableOutcomeIsTheOutcome : Obligations.OpcodeTableOutcomeIsTheOutcome := by
  intro s w himm
  rw [exec_decode, tableOutcome]
  have hw := decodesTo_decode w
  generalize decode w = i at hw
  cases hw with
  | add ho h3 h7 | sub ho h3 h7 | srl ho h3 h7 | sra ho h3 h7 =>
    rw [executeWord_op ho, codeOf_runSelected, tableRow_of_op ho]
    cases hsra : s.cfg.sraImplemented
    all_goals simp [opRows, TableRow.takes, ho, h3, h7, opcodeBits, selectOp, hsra]
  | sll ho h3 | slt ho h3 | xor ho h3 | or ho h3 | and ho h3 =>
    rw [executeWord_op ho, codeOf_runSelected, tableRow_of_op ho]
    cases hs : s.cfg.strictFunct7
    all_goals by_cases h7 : funct7Of w = 0#7
    all_goals simp [opRows, catchAllRows, TableRow.takes, ho, h3, h7, opcodeBits, selectOp, hs]
  | addi ho h3 | slti ho h3 | sltiu ho h3 | xori ho h3 | ori ho h3 | andi ho h3 =>
    rw [executeWord_opImm ho, if_pos himm, codeOf_runSelected, tableRow_of_opImm ho]
    simp [opImmRows, TableRow.takes, ho, h3, opcodeBits, selectOpImm]
  | slli ho h3 =>
    rw [executeWord_opImm ho, if_pos himm, codeOf_runSelected, tableRow_of_opImm ho]
    cases hs : s.cfg.strictFunct7
    all_goals by_cases h7 : funct7Of w = 0#7
    all_goals simp [opImmRows, catchAllRows, TableRow.takes, ho, h3, h7, opcodeBits, selectOpImm, hs]
  | srli ho h3 h7 | srai ho h3 h7 =>
    rw [executeWord_opImm ho, if_pos himm, codeOf_runSelected, tableRow_of_opImm ho]
    cases hsra : s.cfg.sraImplemented
    all_goals simp [opImmRows, TableRow.takes, ho, h3, h7, opcodeBits, selectOpImm, hsra]
  | load ho | store ho | branch ho | jal ho | jalr ho | system ho | lui ho | auipc ho =>
    rw [executeWord_unhandled ho (by decide) (by decide),
      tableRow_of_other (by rw [ho]; decide) (by rw [ho]; decide)]
    simp [classRows, TableRow.takes, ho, opcodeBits, codeOf, raiseNotImplemented]
  | opUnsupported ho hcell =>
    rw [executeWord_op ho, selectOp_emptyCell hcell, codeOf_runSelected, tableRow_of_op ho]
    obtain h3 | ⟨h3 | h3, hz, hs⟩ := emptyOpCell_iff.mp hcell
    all_goals simp_all [opRows, catchAllRows, TableRow.takes, opcodeBits]
  | opImmUnsupported ho hcell =>
    rw [executeWord_opImm ho, selectOpImm_emptyCell hcell, ite_self, codeOf_runSelected, tableRow_of_opImm ho]
    obtain ⟨h3, hz, hs⟩ := emptyOpImmCell_iff.mp hcell
    simp_all [opImmRows, catchAllRows, TableRow.takes, opcodeBits]
  | unknown ho =>
    have hten := recognise_eq_none_iff.mp ho
    rw [executeWord_unknown ho, tableRow_of_other (fun e => hten (e ▸ by decide)) (fun e => hten (e ▸ by decide))]
    simp_all [tenOpcodes, classRows, catchAllRows, TableRow.takes, codeOf, raiseUnknown]

end Sys2Proof.Machine
end

section
/-! PROOF. What follows from the execution of a word by its fields: the outcome depends on three fields and the configuration
(95_test_vectors.md, properties, 5), the count of executing cells (30_encoding.md section 8), and the register-immediate class
switched off (92_eei_decisions.md D1). -/

namespace Sys2Proof.Machine

/-- Settles O49: the class and the selection read opcode, funct3, funct7 and the configuration, and the code reads no more. -/
theorem outcomeDependsOnThreeFieldsOnly : Obligations.OutcomeDependsOnThreeFieldsOnly := by
  intro s s' w w' hcfg ho h3 h7
  rw [exec_decode, exec_decode]
  rcases hr : recognise (opcodeOf w) with _ | c
  · rw [executeWord_unknown hr, executeWord_unknown (ho ▸ hr)]
    rfl
  · have hw := opcodeBits_of_recognise hr
    have hw' := ho ▸ hw
    cases c with
    | op => rw [executeWord_op hw, executeWord_op hw', codeOf_runSelected, codeOf_runSelected, hcfg, h3, h7]
    | opImm => rw [executeWord_opImm hw, executeWord_opImm hw', codeOf_runSelected, codeOf_runSelected, hcfg, h3, h7]
    | load | store | branch | jal | jalr | system | lui | auipc =>
      rw [executeWord_unhandled hw (by decide) (by decide), executeWord_unhandled hw' (by decide) (by decide)]

/-- Settles O41: with the class switched off nothing is selected. -/
theorem disabledOpImmClassRaisesUnsupported : Obligations.DisabledOpImmClassRaisesUnsupported := by
  intro w s himm ho
  have raised : exec (decode w) s = .fault (.unsupportedOperation 0b0010011 (funct3Of w) (funct7Of w)) := by
    rw [exec_decode, executeWord_opImm ho, if_neg (by simp [himm])]
    rfl
  exact ⟨raised, by rw [raised, stateAfter_fault]⟩

/-! ### Counting cells -/

/-- A selection reads two of the configuration's switches. -/
theorem selectOp_congr {c c' : Config} (hs : c.strictFunct7 = c'.strictFunct7) (hsra : c.sraImplemented = c'.sraImplemented) :
    selectOp c = selectOp c' := by
  funext f3 f7
  rw [selectOp, selectOp, hs, hsra]

theorem selectOpImm_congr {c c' : Config} (hs : c.strictFunct7 = c'.strictFunct7)
    (hsra : c.sraImplemented = c'.sraImplemented) : selectOpImm c = selectOpImm c' := by
  funext f3 f7
  rw [selectOpImm, selectOpImm, hs, hsra]

/-- The decided configuration under either reading of the dash. -/
def hardwareReading (strict : Bool) : Config := { Config.hardware with strictFunct7 := strict }

/-- The cell of number `n`, funct3 in its low three bits and funct7 above, selects an operation of class OP. -/
def opCellSelects (strict : Bool) (n : Nat) : Bool :=
  (selectOp (hardwareReading strict) (BitVec.ofNat 3 n) (BitVec.ofNat 7 (n / 8))).isSome

/-- The same of class OP-IMM. -/
def opImmCellSelects (strict : Bool) (n : Nat) : Bool :=
  (selectOpImm (hardwareReading strict) (BitVec.ofNat 3 n) (BitVec.ofNat 7 (n / 8))).isSome

theorem countP_opCellSelects (strict : Bool) :
    (List.range 1024).countP (opCellSelects strict) = if strict then 8 else 643 := by
  cases strict <;> decide +kernel

theorem countP_opImmCellSelects (strict : Bool) :
    (List.range 1024).countP (opImmCellSelects strict) = if strict then 770 else 897 := by
  cases strict <;> decide +kernel

/-- A cell executes exactly when it selects. -/
theorem codeOf_runSelected_beq_ok (c : OpcodeClass) (w : Word) (s : State) (b : Word) (selected : Option AluOp) :
    (codeOf (runSelected c w s b selected) == some .ok) = selected.isSome := by
  cases selected <;> rfl

/-- Settles O17: a cell executes where it selects an operation, and the selection is that of the decided configuration. -/
theorem executingCellCounts : Obligations.ExecutingCellCounts := by
  intro s himm hsra
  have hstrict : s.cfg.strictFunct7 = (hardwareReading s.cfg.strictFunct7).strictFunct7 := rfl
  refine ⟨?_, ?_⟩
  · rw [← countP_opCellSelects]
    congr 1
    funext n
    beta_reduce
    rw [exec_decode, executeWord_op (opcodeOf_pack _), codeOf_runSelected_beq_ok, funct3Of_pack, funct7Of_pack,
      selectOp_congr hstrict hsra, opCellSelects]
  · rw [← countP_opImmCellSelects]
    congr 1
    funext n
    beta_reduce
    rw [exec_decode, executeWord_opImm (opcodeOf_pack _), if_pos himm, codeOf_runSelected_beq_ok, funct3Of_pack,
      funct7Of_pack, selectOpImm_congr hstrict hsra, opImmCellSelects]

end Sys2Proof.Machine
end

section
/-! PROOF. The decoder's answers (30_encoding.md sections 1, 2, 5 and 6; 43_unhandled_opcodes.md) and the sign-extended immediate
as a number. -/

namespace Sys2Proof.Machine

/-! ### The two answers of the decoder -/

/-- The class of what a word stands for is the class its opcode names, and none for the row UNKNOWN (R75, R90). -/
theorem classOf_of_decodesTo {w : Word} {i : Instr} (h : DecodesTo w i) : classOf i = recognise (opcodeOf w) := by
  cases h with
  | unknown ho => exact ho.symm
  | add ho | sub ho | sll ho | slt ho | xor ho | srl ho | sra ho | or ho | and ho | opUnsupported ho
  | addi ho | slli ho | slti ho | sltiu ho | xori ho | srli ho | srai ho | ori ho | andi ho | opImmUnsupported ho
  | load ho | store ho | branch ho | jal ho | jalr ho | system ho | lui ho | auipc ho =>
    rw [ho, recognise_opcodeBits]
    rfl

/-- A word of a class is answered with its six fields, and with an immediate for OP-IMM alone (R83, R90). -/
theorem decodeInstruction_of_class {w : Word} {c : OpcodeClass} (ho : opcodeOf w = opcodeBits c) :
    decodeInstruction w = .ok { cls := c, fields := fieldsOf w,
                                imm := if opcodeOf w = 0x13 then some (sext12 (imm12Of w)) else none } := by
  rw [decodeInstruction, ho, recognise_opcodeBits]
  cases c <;> rfl

/-- A word of no class is the row UNKNOWN (R77). -/
theorem decode_of_unrecognised {w : Word} (h : opcodeOf w ∉ tenOpcodes) : decode w = .unknown w :=
  (DecodesTo.unknown (recognise_eq_none_iff.mpr h)).decode_eq

/-- Settles O13: the opcode is that of a class or of none, and the answer follows. -/
theorem decoderAnswersOneOfTwo : Obligations.DecoderAnswersOneOfTwo := by
  intro w
  refine ⟨fun h => ⟨?_, decode_of_unrecognised h⟩, fun h => ?_⟩
  · rw [decodeInstruction, recognise_eq_none_iff.mpr h]
  · rcases hr : recognise (opcodeOf w) with _ | c
    · exact absurd h (recognise_eq_none_iff.mp hr)
    · have ho := opcodeBits_of_recognise hr
      exact ⟨_, decodeInstruction_of_class ho, rfl, ho.symm, (classOf_of_decodesTo (decodesTo_decode w)).trans hr, rfl⟩

/-- Settles O43: UNKNOWN raises its opcode field, and every word of no class decodes to it. -/
theorem unknownOpcodesAreReported : Obligations.UnknownOpcodesAreReported :=
  ⟨fun _ s => ⟨rfl, stateAfter_fault s _⟩, fun _ => decode_of_unrecognised⟩

/-- Settles O12: the decoder, run on each of the twelve words. -/
theorem sampleWordsDecodeAsTheSpecReadsThem : Obligations.SampleWordsDecodeAsTheSpecReadsThem := by
  unfold Obligations.SampleWordsDecodeAsTheSpecReadsThem
  decide

/-! ### The immediate as a number (R80, R81, R82) -/

/-- Sign extension as a number: 2^32 - 2^12 more where bit 11 is set. -/
theorem toNat_sext12 (v : Imm12) : (sext12 v).toNat = immValue v := by
  have hv := v.isLt
  rw [sext12, BitVec.toNat_signExtend, BitVec.toNat_setWidth, BitVec.msb_eq_decide, immValue]
  simp only [decide_eq_true_eq]
  split <;> split <;> omega

/-- The extended immediate as a signed value is the twelve bits as one. -/
theorem signed_sext12 (v : Imm12) : signed (sext12 v) = if v.toNat < 2048 then (v.toNat : Int) else v.toNat - 4096 := by
  have hv := v.isLt
  rw [signed, toNat_sext12, immValue]
  split <;> split <;> omega

/-- Sign extension leaves the low five bits, which a shift takes as its amount (R82). -/
theorem toNat_sext12_mod (v : Imm12) : (sext12 v).toNat % 32 = (v.extractLsb' 0 5).toNat := by
  rw [toNat_sext12, immValue, BitVec.extractLsb'_toNat, Nat.shiftRight_zero]
  split <;> omega

theorem toNat_imm12Of (w : Word) : (imm12Of w).toNat = w.toNat / 2 ^ 20 := by
  rw [imm12Of, toNat_extractLsb'_eq_div_mod]
  have := w.isLt
  omega

/-- Settles O9: the extension as a number and as a signed value, and its two halves. -/
theorem immediateIsSignExtended : Obligations.ImmediateIsSignExtended := by
  intro w
  refine ⟨toNat_imm12Of w, toNat_sext12 _, signed_sext12 _, ?_, immFunct7_imm12Of w⟩
  rw [shiftAmount_eq_mod, toNat_sext12_mod, imm12Of_eq, low_shiftImm]

end Sys2Proof.Machine
end

section
/-! PROOF. The statements per instruction (41_op_register_register.md, 42_op_immediate.md, 43_unhandled_opcodes.md): the words a
row's mask selects, what a row leaves where it completes, and what it raises where it does not. -/

namespace Sys2Proof.Machine

/-! ### The words a mask selects -/

/-- A match value under its mask is itself, when some word meets it. -/
theorem match_and_mask {w mask m : Word} (h : w &&& mask = m) : m &&& mask = m := by
  rw [← h, BitVec.and_assoc, BitVec.and_self]

section Encodings
variable {m : Word} {i : Word → Instr}

/-- A row whose mask covers opcode, funct3 and funct7. -/
theorem hasEncoding_of_rowMask (h : ∀ w, opcodeOf w = opcodeOf m → funct3Of w = funct3Of m → funct7Of w = funct7Of m →
    DecodesTo w (i w)) : HasEncoding 0xFE00707F m i := by
  intro w hw
  obtain ⟨ho, h3, h7⟩ := fields_of_and_rowMask hw
  exact (h w ho h3 h7).decode_eq

/-- A row whose mask covers opcode and funct3. -/
theorem hasEncoding_of_cellMask (h : ∀ w, opcodeOf w = opcodeOf m → funct3Of w = funct3Of m → DecodesTo w (i w)) :
    HasEncoding 0x0000707F m i := by
  intro w hw
  obtain ⟨ho, h3⟩ := (and_cellMask_eq_iff (match_and_mask hw)).mp hw
  exact (h w ho h3).decode_eq

/-- A row whose mask covers the opcode. -/
theorem hasEncoding_of_classMask (h : ∀ w, opcodeOf w = opcodeOf m → DecodesTo w (i w)) : HasEncoding 0x0000007F m i :=
  fun w hw => (h w ((and_classMask_eq_iff (match_and_mask hw)).mp hw)).decode_eq

/-- A dash row under its strict mask: the same words as under the plain mask, with funct7 zero. -/
theorem HasEncoding.strict {i : Word → Funct7 → Instr} (h : HasEncoding 0x0000707F m (fun w => i w (funct7Of w)))
    (hm : m &&& 0x0000707F = m) : HasEncoding 0xFE00707F m (fun w => i w 0) := by
  intro w hw
  have hm7 : funct7Of m = 0 := by
    rw [← hm, funct7Of_and]
    exact BitVec.and_zero
  have h7 : funct7Of w = 0 := (fields_of_and_rowMask hw).2.2.trans hm7
  have hcell : w &&& 0x0000707F = m := by
    rw [← hm, ← hw, BitVec.and_assoc]
    rfl
  exact (h w hcell).trans (congrArg (i w) h7)

end Encodings

/-! ### Completion and raising -/

/-- An instruction that runs a register-immediate operation completes with what the ALU computes from the register and the
extended immediate. -/
theorem completesWith_of_runOpImm {i : Instr} {s : State} {op : AluOp} {rd rs1 : RegIdx} {imm : Imm12}
    (h : exec i s = runOpImm op rd rs1 imm s) : CompletesWith i s rd (alu op (s.readReg rs1) (sext12 imm)).toNat :=
  ⟨_, h.trans (runOpImm_eq ..), s.toNat_readReg_complete rd _, s.onlyWrites_complete rd _⟩

/-- An instruction that raises UnsupportedOperation leaves the host the state from before. -/
theorem raisesUnsupported_of_exec (c : OpcodeClass) {i : Instr} {s : State} {f3 : Funct3} {f7 : Funct7}
    (h : exec i s = raiseUnsupported c f3 f7) : RaisesUnsupported i s (opcodeBits c) f3 f7 :=
  ⟨h, by rw [h, raiseUnsupported, stateAfter_fault]⟩

/-- The same of NotImplemented. -/
theorem raisesNotImplemented_of_exec {i : Instr} {s : State} {c : OpcodeClass} (h : exec i s = raiseNotImplemented c) :
    RaisesNotImplemented i s c :=
  ⟨h, by rw [h, raiseNotImplemented, stateAfter_refused]⟩

/-- Where the operation itself raises the class's error, the class's switch makes no difference. -/
theorem opImmClass_raiseUnsupported (f3 : Funct3) (f7 : Funct7) (s : State) :
    opImmClass f3 f7 s (raiseUnsupported .opImm f3 f7) = raiseUnsupported .opImm f3 f7 := ite_self _

/-! ### Results as numbers -/

theorem toNat_alu_xor (a b : Word) : (alu .xor a b).toNat = a.toNat ^^^ b.toNat := BitVec.toNat_xor a b

theorem toNat_alu_or (a b : Word) : (alu .or a b).toNat = a.toNat ||| b.toNat := BitVec.toNat_or a b

theorem toNat_alu_and (a b : Word) : (alu .and a b).toNat = a.toNat &&& b.toNat := BitVec.toNat_and a b

theorem toNat_alu_sltu (a b : Word) : (alu .sltu a b).toNat = if a.toNat < b.toNat then 1 else 0 := by
  rw [alu, toNat_truthWord, lessUnsigned, BitVec.ult]
  simp only [decide_eq_true_eq]

theorem toNat_alu_sra (a b : Word) : (alu .sra a b).toNat = (signed a / 2 ^ (b.toNat % 32) % 2 ^ 32).toNat := by
  rw [← signed_alu_sra, ← toNat_eq_signed_emod, Int.toNat_natCast]

/-- The amount of a shift by an immediate is its low five bits, whatever stands above them (R82). -/
theorem toNat_sext12_shiftImm_mod (f7 : Funct7) (shamt : BitVec 5) :
    (sext12 (shiftImm f7 shamt)).toNat % 32 = shamt.toNat := by
  rw [toNat_sext12_mod, low_shiftImm]

/-- Settles O22: the comparison of the operands as numbers. -/
theorem aluUnsignedComparison : Obligations.AluUnsignedComparison := toNat_alu_sltu

/-- Settles O23: sum and difference of words are those of a group. -/
theorem subUndoesAdd : Obligations.SubUndoesAdd := fun a b => ⟨BitVec.add_sub_cancel a b, BitVec.sub_add_cancel a b⟩

/-! ### Register-register instructions -/

/-- Settles O26: where its check passes, SLL runs the ALU's left shift. -/
theorem sllCompletesWithTheLeftShift : Obligations.SllCompletesWithTheLeftShift := by
  have plain := hasEncoding_of_cellMask (m := 0x00001033) fun _ ho h3 => .sll ho h3
  refine ⟨fun rd rs1 rs2 f7 s h => ?_, plain, plain.strict (by decide)⟩
  rw [← toNat_alu_sll]
  exact completesWith_of_runOp (dashRow_runs h)

/-- Settles O27: where its check passes, SLT runs the ALU's signed comparison. -/
theorem sltCompletesWithTheSignedComparison : Obligations.SltCompletesWithTheSignedComparison := by
  have plain := hasEncoding_of_cellMask (m := 0x00002033) fun _ ho h3 => .slt ho h3
  refine ⟨fun rd rs1 rs2 f7 s h => ?_, plain, plain.strict (by decide)⟩
  rw [← toNat_alu_slt]
  exact completesWith_of_runOp (dashRow_runs h)

/-- Settles O28: where their check passes, XOR, OR and AND run the ALU's bitwise operations. -/
theorem bitwiseRegisterInstructionsComplete : Obligations.BitwiseRegisterInstructionsComplete := by
  have xorPlain := hasEncoding_of_cellMask (m := 0x00004033) fun _ ho h3 => .xor ho h3
  have orPlain := hasEncoding_of_cellMask (m := 0x00006033) fun _ ho h3 => .or ho h3
  have andPlain := hasEncoding_of_cellMask (m := 0x00007033) fun _ ho h3 => .and ho h3
  refine ⟨fun rd rs1 rs2 f7 s h => ?_, xorPlain, xorPlain.strict (by decide), orPlain, orPlain.strict (by decide),
    andPlain, andPlain.strict (by decide)⟩
  rw [← toNat_alu_xor, ← toNat_alu_or, ← toNat_alu_and]
  exact ⟨completesWith_of_runOp (dashRow_runs h), completesWith_of_runOp (dashRow_runs h),
    completesWith_of_runOp (dashRow_runs h)⟩

/-- Settles O30: the switch decides between the ALU's arithmetic shift and the error. -/
theorem sraFollowsItsSwitch : Obligations.SraFollowsItsSwitch := by
  refine ⟨fun rd rs1 rs2 s h => ?_, fun rd rs1 rs2 s h => raisesUnsupported_of_exec .op (sraRow_raises h),
    hasEncoding_of_rowMask fun _ ho h3 h7 => .sra ho h3 h7⟩
  rw [← toNat_alu_sra]
  exact completesWith_of_runOp (sraRow_runs h)

/-- Settles O31: the row raises its triple, and the cells of R158 and R159 are the empty ones. -/
theorem emptyOpCellsRaiseUnsupported : Obligations.EmptyOpCellsRaiseUnsupported :=
  ⟨fun _ _ _ _ _ _ => raisesUnsupported_of_exec .op rfl,
    fun _ ho hcell => (DecodesTo.opUnsupported ho (emptyOpCell_iff.mpr hcell)).decode_eq⟩

/-- Settles O32: the check of each of the six rows fails; SLLI raises the same where its class is switched off. -/
theorem strictDashRowsRaiseUnsupported : Obligations.StrictDashRowsRaiseUnsupported := by
  intro rd rs1 rs2 shamt f7 s hs h7
  refine ⟨?sll, ?slt, ?xor, ?or, ?and, ?slli⟩
  case slli =>
    refine raisesUnsupported_of_exec .opImm ?_
    rw [exec, execSlli, dashRow_raises hs h7, opImmClass_raiseUnsupported]
  all_goals exact raisesUnsupported_of_exec .op (dashRow_raises hs h7)

/-! ### Register-immediate instructions -/

/-- Settles O34: ADDI runs the ALU's sum on the extended immediate. -/
theorem addiCompletesWithTheSum : Obligations.AddiCompletesWithTheSum := by
  refine ⟨fun rd rs1 imm s h => ?_, hasEncoding_of_cellMask fun _ ho h3 => .addi ho h3⟩
  rw [← toNat_sext12, ← toNat_alu_add]
  exact completesWith_of_runOpImm (opImmClass_runs h)

/-- Settles O35: SLLI runs the ALU's left shift, whose amount is the low five immediate bits. -/
theorem slliCompletesWithTheLeftShift : Obligations.SlliCompletesWithTheLeftShift := by
  have plain := hasEncoding_of_cellMask (m := 0x00001013) fun _ ho h3 => .slli ho h3
  refine ⟨fun rd rs1 shamt f7 s h hd => ?_, plain, plain.strict (by decide)⟩
  rw [← toNat_sext12_shiftImm_mod f7, ← toNat_alu_sll]
  exact completesWith_of_runOpImm ((opImmClass_runs h).trans (dashRow_runs hd))

/-- Settles O36: SLTI and SLTIU run the ALU's two comparisons on the extended immediate. -/
theorem immediateComparisonsComplete : Obligations.ImmediateComparisonsComplete := by
  refine ⟨fun rd rs1 imm s h => ?_, hasEncoding_of_cellMask fun _ ho h3 => .slti ho h3,
    hasEncoding_of_cellMask fun _ ho h3 => .sltiu ho h3⟩
  rw [← toNat_sext12, ← toNat_alu_slt, ← toNat_alu_sltu]
  exact ⟨completesWith_of_runOpImm (opImmClass_runs h), completesWith_of_runOpImm (opImmClass_runs h)⟩

/-- Settles O37: XORI, ORI and ANDI run the ALU's bitwise operations on the extended immediate. -/
theorem bitwiseImmediateInstructionsComplete : Obligations.BitwiseImmediateInstructionsComplete := by
  refine ⟨fun rd rs1 imm s h => ?_, hasEncoding_of_cellMask fun _ ho h3 => .xori ho h3,
    hasEncoding_of_cellMask fun _ ho h3 => .ori ho h3, hasEncoding_of_cellMask fun _ ho h3 => .andi ho h3⟩
  rw [← toNat_sext12, ← toNat_alu_xor, ← toNat_alu_or, ← toNat_alu_and]
  exact ⟨completesWith_of_runOpImm (opImmClass_runs h), completesWith_of_runOpImm (opImmClass_runs h),
    completesWith_of_runOpImm (opImmClass_runs h)⟩

/-- Settles O38: SRLI runs the ALU's zero-filled shift by the low five immediate bits. -/
theorem srliCompletesWithTheRightShift : Obligations.SrliCompletesWithTheRightShift := by
  refine ⟨fun rd rs1 shamt s h => ?_, hasEncoding_of_rowMask fun _ ho h3 h7 => .srli ho h3 h7⟩
  rw [← toNat_sext12_shiftImm_mod 0b0000000, ← toNat_alu_srl]
  exact completesWith_of_runOpImm (opImmClass_runs h)

/-- Settles O39: SRA's switch decides; where it is off, the error is the class's own. -/
theorem sraiFollowsItsSwitch : Obligations.SraiFollowsItsSwitch := by
  refine ⟨fun rd rs1 shamt s himm h => ?_, fun rd rs1 shamt s h => raisesUnsupported_of_exec .opImm ?_,
    hasEncoding_of_rowMask fun _ ho h3 h7 => .srai ho h3 h7⟩
  · rw [← toNat_sext12_shiftImm_mod 0b0100000, ← toNat_alu_sra]
    exact completesWith_of_runOpImm ((opImmClass_runs himm).trans (sraRow_runs h))
  · rw [exec, execSrai, sraRow_raises h, opImmClass_raiseUnsupported]

/-- Settles O40: the row raises its triple, and the cells of R179 are the empty ones. -/
theorem emptyOpImmCellsRaiseUnsupported : Obligations.EmptyOpImmCellsRaiseUnsupported :=
  ⟨fun _ _ _ _ _ => raisesUnsupported_of_exec .opImm rfl,
    fun _ ho h3 hz hs => h3 ▸ (DecodesTo.opImmUnsupported ho (emptyOpImmCell_iff.mpr ⟨h3, hz, hs⟩)).decode_eq⟩

/-! ### The unhandled classes -/

/-- Settles O42: each class raises its own outcome, and its opcode alone selects it. -/
theorem unhandledClassesAreNotImplemented : Obligations.UnhandledClassesAreNotImplemented := by
  refine ⟨fun rest s => ?_, ?_⟩
  · refine ⟨?_, ?_, ?_, ?_, ?_, ?_, ?_, ?_⟩
    all_goals exact raisesNotImplemented_of_exec rfl
  · exact ⟨hasEncoding_of_classMask fun _ ho => .load ho, hasEncoding_of_classMask fun _ ho => .store ho,
      hasEncoding_of_classMask fun _ ho => .branch ho, hasEncoding_of_classMask fun _ ho => .jal ho,
      hasEncoding_of_classMask fun _ ho => .jalr ho, hasEncoding_of_classMask fun _ ho => .system ho,
      hasEncoding_of_classMask fun _ ho => .lui ho, hasEncoding_of_classMask fun _ ho => .auipc ho⟩

end Sys2Proof.Machine
end

section
/-! PROOF. Two comparisons of one instruction in two states: states that agree on its source registers (10_state.md section 2),
and a state under the two readings of the dash (92_eei_decisions.md D3). Each is proved for the shared operations and configuration
checks, and then read off row by row. -/

namespace Sys2Proof.Machine

/-! ### States that agree on the sources -/

/-- Two executions end alike: both complete with one value in `rd`, or both stop for one reason. -/
inductive EndAlike (s s' : State) (rd : Option RegIdx) : Result → Result → Prop where
  | complete {r : RegIdx} (hr : rd = some r) (y : Word) : EndAlike s s' rd (.next (s.complete r y)) (.next (s'.complete r y))
  | fault (f : Fault) : EndAlike s s' rd (.fault f) (.fault f)
  | refused (r : Refusal) : EndAlike s s' rd (.refused r) (.refused r)

section EndAlike
variable {s s' : State} {rd : RegIdx} {run run' : Result}

theorem endAlike_runOp {rs1 rs2 : RegIdx} (h : ∀ r ∈ [rs1, rs2], s.readReg r = s'.readReg r) (op : AluOp) :
    EndAlike s s' (some rd) (runOp op rd rs1 rs2 s) (runOp op rd rs1 rs2 s') := by
  rw [runOp_eq, runOp_eq, h rs1 (by simp), h rs2 (by simp)]
  exact .complete rfl _

theorem endAlike_runOpImm {rs1 : RegIdx} (h : ∀ r ∈ [rs1], s.readReg r = s'.readReg r) (op : AluOp) (imm : Imm12) :
    EndAlike s s' (some rd) (runOpImm op rd rs1 imm s) (runOpImm op rd rs1 imm s') := by
  rw [runOpImm_eq, runOpImm_eq, h rs1 (by simp)]
  exact .complete rfl _

theorem EndAlike.dashRow {o : Option RegIdx} (h : EndAlike s s' o run run') (hcfg : s.cfg = s'.cfg) (c : OpcodeClass)
    (f3 : Funct3) (f7 : Funct7) : EndAlike s s' o (dashRow c f3 f7 s run) (dashRow c f3 f7 s' run') := by
  rw [Machine.dashRow, Machine.dashRow, hcfg]
  split
  · exact .fault _
  · exact h

theorem EndAlike.opImmClass {o : Option RegIdx} (h : EndAlike s s' o run run') (hcfg : s.cfg = s'.cfg) (f3 : Funct3)
    (f7 : Funct7) : EndAlike s s' o (opImmClass f3 f7 s run) (opImmClass f3 f7 s' run') := by
  rw [Machine.opImmClass, Machine.opImmClass, hcfg]
  split
  · exact h
  · exact .fault _

theorem EndAlike.sraRow {o : Option RegIdx} (h : EndAlike s s' o run run') (hcfg : s.cfg = s'.cfg) (c : OpcodeClass) :
    EndAlike s s' o (sraRow c s run) (sraRow c s' run') := by
  rw [Machine.sraRow, Machine.sraRow, hcfg]
  split
  · exact h
  · exact .fault _

/-- An instruction ends alike in two states of one configuration that agree on its sources. -/
theorem endAlike_exec (i : Instr) (hcfg : s.cfg = s'.cfg) (h : ∀ r ∈ sourcesOf i, s.readReg r = s'.readReg r) :
    EndAlike s s' (destOf i) (exec i s) (exec i s') := by
  cases i with
  | add rd rs1 rs2 | sub rd rs1 rs2 | srl rd rs1 rs2 => exact endAlike_runOp h _
  | sll rd rs1 rs2 f7 | slt rd rs1 rs2 f7 | xor rd rs1 rs2 f7 | or rd rs1 rs2 f7 | and rd rs1 rs2 f7 =>
    exact (endAlike_runOp h _).dashRow hcfg _ _ _
  | sra rd rs1 rs2 => exact (endAlike_runOp h _).sraRow hcfg _
  | addi rd rs1 v | slti rd rs1 v | sltiu rd rs1 v | xori rd rs1 v | ori rd rs1 v | andi rd rs1 v | srli rd rs1 v =>
    exact (endAlike_runOpImm h _ _).opImmClass hcfg _ _
  | slli rd rs1 v f7 => exact ((endAlike_runOpImm h _ _).dashRow hcfg _ _ _).opImmClass hcfg _ _
  | srai rd rs1 v => exact ((endAlike_runOpImm h _ _).sraRow hcfg _).opImmClass hcfg _ _
  | opUnsupported | opImmUnsupported | unknown => exact .fault _
  | load | store | branch | jal | jalr | system | lui | auipc => exact .refused _

end EndAlike

/-- The destination of a completed operation holds the result alone: two states completed with one value agree there. -/
theorem State.readReg_complete_congr (s s' : State) (rd : RegIdx) (y : Word) :
    (s'.complete rd y).readReg rd = (s.complete rd y).readReg rd :=
  BitVec.eq_of_toNat_eq ((s'.toNat_readReg_complete rd y).trans (s.toNat_readReg_complete rd y).symm)

/-- Settles O48: the two executions end alike, and each way to end alike is one clause. -/
theorem resultDependsOnSourceRegistersOnly : Obligations.ResultDependsOnSourceRegistersOnly := by
  intro i s s' hcfg h
  have alike := endAlike_exec i hcfg h
  generalize exec i s = run, exec i s' = run' at alike ⊢
  cases alike with
  | complete hr y =>
    refine ⟨fun t ht => ⟨_, rfl, fun rd hrd => ?_⟩, nofun, nofun⟩
    obtain rfl := Option.some.inj (hr.symm.trans hrd)
    rw [← Host.Outcome.next.inj ht, State.readReg_complete_congr s s']
  | fault f => exact ⟨nofun, fun _ => id, nofun⟩
  | refused r => exact ⟨nofun, nofun, fun _ => id⟩

/-! ### The two readings of the dash -/

/-- Completing a step does not look at the reading of the dash. -/
theorem State.loosened_complete (s : State) (rd : RegIdx) (y : Word) :
    s.loosened.complete rd y = (s.complete rd y).loosened := by
  by_cases h : rd = 0
  · rw [h, State.complete, State.complete, State.writeReg_zero_eq, State.writeReg_zero_eq]
    rfl
  · rw [State.complete, State.complete, State.writeReg, State.writeReg, if_neg h, if_neg h]
    rfl

/-- What completes in one state completes in the loosened state, as the loosened next state. -/
def CompletesLoosened (run run' : Result) : Prop := ∀ t, run = .next t → run' = .next t.loosened

section CompletesLoosened
variable {s : State} {run run' : Result}

theorem completesLoosened_runOp (op : AluOp) (rd rs1 rs2 : RegIdx) (s : State) :
    CompletesLoosened (runOp op rd rs1 rs2 s) (runOp op rd rs1 rs2 s.loosened) := by
  rintro t ht
  rw [← Host.Outcome.next.inj ht, runOp_eq, State.loosened_complete]
  rfl

theorem completesLoosened_runOpImm (op : AluOp) (rd rs1 : RegIdx) (imm : Imm12) (s : State) :
    CompletesLoosened (runOpImm op rd rs1 imm s) (runOpImm op rd rs1 imm s.loosened) := by
  rintro t ht
  rw [← Host.Outcome.next.inj ht, runOpImm_eq, State.loosened_complete]
  rfl

/-- The loose reading's check passes always. -/
theorem CompletesLoosened.dashRow (h : CompletesLoosened run run') (c : OpcodeClass) (f3 : Funct3) (f7 : Funct7) :
    CompletesLoosened (dashRow c f3 f7 s run) (dashRow c f3 f7 s.loosened run') := by
  intro t ht
  rw [Machine.dashRow] at ht
  split at ht
  · exact nomatch ht
  · exact (dashRow_runs (.inl rfl)).trans (h t ht)

theorem CompletesLoosened.opImmClass (h : CompletesLoosened run run') (f3 : Funct3) (f7 : Funct7) :
    CompletesLoosened (opImmClass f3 f7 s run) (opImmClass f3 f7 s.loosened run') := by
  intro t ht
  rw [Machine.opImmClass] at ht
  split at ht
  · next himm => exact (opImmClass_runs (s := s.loosened) himm).trans (h t ht)
  · exact nomatch ht

theorem CompletesLoosened.sraRow (h : CompletesLoosened run run') (c : OpcodeClass) :
    CompletesLoosened (sraRow c s run) (sraRow c s.loosened run') := by
  intro t ht
  rw [Machine.sraRow] at ht
  split at ht
  · next hsra => exact (sraRow_runs (s := s.loosened) hsra).trans (h t ht)
  · exact nomatch ht

end CompletesLoosened

/-- Settles O33: row by row, what completes also completes in the loosened state. -/
theorem strictReadingOnlyRefusesMore : Obligations.StrictReadingOnlyRefusesMore := by
  intro i s t _
  suffices CompletesLoosened (exec i s) (exec i s.loosened) from this t
  cases i with
  | add | sub | srl => exact completesLoosened_runOp _ _ _ _ s
  | sll | slt | xor | or | and => exact (completesLoosened_runOp _ _ _ _ s).dashRow _ _ _
  | sra => exact (completesLoosened_runOp _ _ _ _ s).sraRow _
  | addi | slti | sltiu | xori | ori | andi | srli => exact (completesLoosened_runOpImm _ _ _ _ s).opImmClass _ _
  | slli => exact ((completesLoosened_runOpImm _ _ _ _ s).dashRow _ _ _).opImmClass _ _
  | srai => exact ((completesLoosened_runOpImm _ _ _ _ s).sraRow _).opImmClass _ _
  | opUnsupported | opImmUnsupported | unknown | load | store | branch | jal | jalr | system | lui | auipc => exact nofun

end Sys2Proof.Machine
end
